-- ==== Sys2Proof/Word.lean ====
section
/-! DEFINITION. The word types of SRVMUX v1: what the spec moves as bits (spec/20_memory.md R62, R64;
spec/30_encoding.md R81, R82). Counts, sizes and operands inside a computation are `Nat` (spec/00_scope.md R11). -/

namespace Sys2Proof

/-- A byte of a command or response word carried over a byte-wide bus (R62). -/
abbrev Byte := BitVec 8

/-- A 48-bit command word, `OP[47:40] SEL[39:32] IMM[31:0]` (R81). -/
abbrev CommandWord := BitVec 48

/-- A 40-bit response word, `STATUS[39:32] DATA[31:0]` (R82). -/
abbrev ResponseWord := BitVec 40

/-- A 16-bit tick quantity: `TCNT`, `SCNT`, `PERIOD`, `PULSE`, the compare registers, a table entry (R20). -/
abbrev Ticks := BitVec 16

end Sys2Proof
end

