-- ==== Sys2Proof/Syntax.lean ====
section
/-! DEFINITION. The commands of spec/opcode_table.json (spec/30_encoding.md R87), the register names of
spec/10_state.md R44 and the assembler's lines (R91, R92). TICK is no command and has no constructor
(spec/40_tick_source.md R101): it is an input of the machine. -/

namespace Sys2Proof

/-- One constructor per row of the opcode map (R87). Operands are the command word's fields, whole (R85). -/
inductive Instr where
  /-- SETPW channel, value (R110). -/
  | setpw (ch : BitVec 8) (v : BitVec 32)
  /-- GETPW channel (R111). -/
  | getpw (ch : BitVec 8)
  /-- ARM delay (R130). -/
  | arm (d : BitVec 32)
  /-- STOP (R132). -/
  | stop
  /-- TSTCLR flag (R165). -/
  | tstclr (f : BitVec 8)
  /-- RDREG register (R180). -/
  | rdreg (r : BitVec 8)
  /-- STEPDONE (R137). -/
  | stepdone
deriving DecidableEq, Repr

/-- The registers of the map of R44, by name. -/
inductive RegName where
  | pw (i : Fin 16)
  | idx
  | period
  | pulse
  | scnt
  | tcnt
  | ocrS
  | rem
  | sched
  | ocrD
  | divctl
  | cntMs
  | cnt10ms
  | cnt250ms
  | flags
  | pins
deriving DecidableEq, Repr

/-- A line of the assembler (R91) or a pseudo-instruction (R92), operands as the numbers written. -/
inductive Asm where
  | setpw (ch v : Nat)
  | getpw (ch : Nat)
  | arm (d : Nat)
  | stop
  | tstclr (f : Nat)
  | rdreg (r : Nat)
  | stepdone
  /-- `CANCEL`, which assembles to `ARM 0` (R92). -/
  | cancel
  /-- `WAIT n`, the harness directive for `n` TICKs: no command, no encoding (R92). -/
  | wait (n : Nat)
deriving DecidableEq, Repr

end Sys2Proof
end

