-- ==== Sys2Proof/WellFormed.lean ====
section
/-! DEFINITION. What is well formed: a command word by the match and mask table of spec/30_encoding.md R87, and an
assembler line by R91 ("must fit their field"). An `Instr` needs no check of its own: its operands have the width of
the field that carries them, so an operand that does not fit cannot be built; the checks stand where a number (`Asm`)
or a raw word (`CommandWord`) comes in. -/

namespace Sys2Proof

/-- A row of R87's match and mask list. -/
structure OpcodeRow where
  mnemonic : String
  pattern : CommandWord
  mask : CommandWord
deriving DecidableEq, Repr

/-- The match and mask list of R87, in the table's order. -/
def opcodeRows : List OpcodeRow :=
  [ ⟨"SETPW", 0x010000000000#48, 0xFF0000000000#48⟩,
    ⟨"GETPW", 0x020000000000#48, 0xFF00FFFFFFFF#48⟩,
    ⟨"ARM", 0x030000000000#48, 0xFFFF00000000#48⟩,
    ⟨"STOP", 0x040000000000#48, 0xFFFFFFFFFFFF#48⟩,
    ⟨"TSTCLR", 0x050000000000#48, 0xFF00FFFFFFFF#48⟩,
    ⟨"RDREG", 0x060000000000#48, 0xFF00FFFFFFFF#48⟩,
    ⟨"STEPDONE", 0x070000000000#48, 0xFFFFFFFFFFFF#48⟩ ]

/-- Whether a word is one of the row's. -/
def OpcodeRow.accepts (row : OpcodeRow) (w : CommandWord) : Bool := w &&& row.mask == row.pattern

/-- A command word is well formed when some row of R87 accepts it; every other word is illegal (R88). -/
def wordWellFormed (w : CommandWord) : Bool := opcodeRows.any fun row => row.accepts w

/-- Whether a number fits an unsigned field of `n` bits (R91). -/
def fitsField (n v : Nat) : Bool := decide (v < 2 ^ n)

/-- R91: "An assembler refuses a number that does not fit its field; it does not refuse a value the block will reject
at run time". WAIT has no field. -/
def Asm.wellFormed : Asm → Bool
  | .setpw ch v => fitsField 8 ch && fitsField 32 v
  | .getpw ch => fitsField 8 ch
  | .arm d => fitsField 32 d
  | .stop => true
  | .tstclr f => fitsField 8 f
  | .rdreg r => fitsField 8 r
  | .stepdone => true
  | .cancel => true
  | .wait _ => true

end Sys2Proof
end

