-- ==== Sys2Proof/Decode.lean ====
section
/-! DEFINITION. Decoding and encoding of command words (spec/30_encoding.md R81-R90), the byte order of a word on a
byte-wide bus (spec/20_memory.md R62, R63), and the assembler's last step (R91, R92). -/

namespace Sys2Proof

/-- `OP`, bits 47:40 (R81). -/
def opField (w : CommandWord) : BitVec 8 := w.extractLsb' 40 8

/-- `SEL`, bits 39:32 (R81). -/
def selField (w : CommandWord) : BitVec 8 := w.extractLsb' 32 8

/-- `IMM`, bits 31:0 (R81). -/
def immField (w : CommandWord) : BitVec 32 := w.extractLsb' 0 32

/-- The command word with the given fields (R81). -/
def packCommand (op sel : BitVec 8) (imm : BitVec 32) : CommandWord := (op ++ sel) ++ imm

/-- Why a word or a run of bytes is no command. The first three all raise ERR_ILLEGAL (R84); the fourth is no command
at all, because "A bus adapter that delivers part of a word has delivered no command" (R63). -/
inductive DecodeError where
  | illegalOpcode
  | selectorNotZero
  | immediateNotZero
  | partialWord
deriving DecidableEq, Repr

/-- The instruction `i`, if the fields R84 requires to be 0 are 0. -/
def requireZero (selUsed immUsed : Bool) (w : CommandWord) (i : Instr) : Except DecodeError Instr :=
  if !selUsed && selField w != 0#8 then .error .selectorNotZero
  else if !immUsed && immField w != 0#32 then .error .immediateNotZero
  else .ok i

/-- R84, total on all 2^48 words: dispatch on `OP`, then the must-be-zero fields of that row. -/
def decode (w : CommandWord) : Except DecodeError Instr :=
  match (opField w).toNat with
  | 0x01 => requireZero true true w (.setpw (selField w) (immField w))
  | 0x02 => requireZero true false w (.getpw (selField w))
  | 0x03 => requireZero false true w (.arm (immField w))
  | 0x04 => requireZero false false w .stop
  | 0x05 => requireZero true false w (.tstclr (selField w))
  | 0x06 => requireZero true false w (.rdreg (selField w))
  | 0x07 => requireZero false false w .stepdone
  | _ => .error .illegalOpcode

/-- The word of an instruction, by the patterns of R87. -/
def encode : Instr → CommandWord
  | .setpw ch v => packCommand 0x01#8 ch v
  | .getpw ch => packCommand 0x02#8 ch 0#32
  | .arm d => packCommand 0x03#8 0#8 d
  | .stop => packCommand 0x04#8 0#8 0#32
  | .tstclr f => packCommand 0x05#8 f 0#32
  | .rdreg r => packCommand 0x06#8 r 0#32
  | .stepdone => packCommand 0x07#8 0#8 0#32

/-! ### Bytes -/

/-- R62: "the bytes go least-significant first: byte k carries bits 8k+7:8k". -/
def commandBytes (w : CommandWord) : List Byte :=
  [w.extractLsb' 0 8, w.extractLsb' 8 8, w.extractLsb' 16 8, w.extractLsb' 24 8, w.extractLsb' 32 8,
    w.extractLsb' 40 8]

/-- R62 for a response word. -/
def responseBytes (w : ResponseWord) : List Byte :=
  [w.extractLsb' 0 8, w.extractLsb' 8 8, w.extractLsb' 16 8, w.extractLsb' 24 8, w.extractLsb' 32 8]

/-- The whole words in a run of bytes, in order, and the bytes of a word not yet whole (R62, R63). -/
def wordsOfBytes : List Byte → List CommandWord × List Byte
  | b0 :: b1 :: b2 :: b3 :: b4 :: b5 :: rest =>
    let later := wordsOfBytes rest
    ((b5 ++ b4 ++ b3 ++ b2 ++ b1 ++ b0 : BitVec 48) :: later.1, later.2)
  | waiting => ([], waiting)

/-- The instruction at the head of a run of bytes and the bytes after it. -/
def decodeBytes : List Byte → Except DecodeError (Instr × List Byte)
  | b0 :: b1 :: b2 :: b3 :: b4 :: b5 :: rest =>
    match decode (b5 ++ b4 ++ b3 ++ b2 ++ b1 ++ b0 : BitVec 48) with
    | .ok i => .ok (i, rest)
    | .error e => .error e
  | _ => .error .partialWord

/-- The 48-bit word whose low `nbits` bits are `w` and whose other bits are 0. -/
def tableWord (nbits w : Nat) : CommandWord := BitVec.ofNat 48 (w % 2 ^ nbits)

/-- The instruction the decoder reads from the bytes, as a byte-wide bus would carry them (R62), of the opcode table's
word `w`; a number of more than 48 bits is no word of this block (R90). -/
def decodeTableWord (nbits w : Nat) : Option Instr :=
  if nbits ≤ 48 then
    match decodeBytes (commandBytes (tableWord nbits w)) with
    | .ok (i, _) => some i
    | .error _ => none
  else none

/-! ### Assembling -/

/-- The command an assembler line stands for; CANCEL is `ARM 0` and WAIT is none (R92). -/
def Asm.command : Asm → Option Instr
  | .setpw ch v => some (.setpw (BitVec.ofNat 8 ch) (BitVec.ofNat 32 v))
  | .getpw ch => some (.getpw (BitVec.ofNat 8 ch))
  | .arm d => some (.arm (BitVec.ofNat 32 d))
  | .stop => some .stop
  | .tstclr f => some (.tstclr (BitVec.ofNat 8 f))
  | .rdreg r => some (.rdreg (BitVec.ofNat 8 r))
  | .stepdone => some .stepdone
  | .cancel => some (.arm 0#32)
  | .wait _ => none

/-- The word a line assembles to: none for a number that does not fit its field (R91) and for WAIT (R92). -/
def assemble (a : Asm) : Option CommandWord :=
  if a.wellFormed then a.command.map encode else none

end Sys2Proof
end

