-- ==== Sys2Proof/Config.lean ====
section
/-! DEFINITION. The implementation parameters of spec/00_scope.md R7 as configuration fields, the constraints of R9,
and this hardware's configuration `Config.hw`. The parameters the spec leaves OPEN (spec/92_eei_decisions.md, "OPEN
parameters") are opaque constants: nothing in Lean can evaluate them, so what is proved holds for each of their values. -/

namespace Sys2Proof

/-- The parameters of R7, plus `CMD_PORT_BASE` of spec/20_memory.md R61. -/
structure Config where
  /-- `N_CH`, servo channels. -/
  nCh : Nat
  /-- `TCNT_W`, tick-counter width. -/
  tcntW : Nat
  /-- `PW_W`, width of one pulse-width table entry. -/
  pwW : Nat
  /-- `REM_W`, width of `REM` and of the ARM operand. -/
  remW : Nat
  /-- `MIN_PULSE`, smallest accepted pulse width. -/
  minPulse : Nat
  /-- `MAX_PULSE_EXCL`, smallest rejected width above the range (spec/90_conflicts.md C1). -/
  maxPulseExcl : Nat
  /-- `PW_RESET`, reset value of every table entry. -/
  pwReset : Nat
  /-- `MIN_DELAY`, the floor ARM clamps a non-zero delay to. -/
  minDelay : Nat
  /-- `EARLY`, the early-fire offset. -/
  early : Nat
  /-- `DIV_T1`, base periods per 10 ms flag. -/
  divT1 : Nat
  /-- `DIV_T2`, 10 ms periods per 250 ms flag. -/
  divT2 : Nat
  /-- `DIV_T3`, 250 ms periods per 1 s flag. -/
  divT3 : Nat
  /-- `DIV_PERIOD`, ticks per divider base period (OPEN, 1..65535). -/
  divPeriod : Nat
  /-- `P_STOP_DISABLES_DIVIDER`, whether STOP also clears `DIV_EN` (OPEN, spec/90_conflicts.md C6). -/
  stopDisablesDivider : Bool
  /-- `TICK_HZ`, tick rate (OPEN); no rule depends on it. -/
  tickHz : Rat
  /-- `CMD_PORT_BASE`, the port's place on a bus (OPEN, R61); no rule depends on it. -/
  cmdPortBase : Nat
deriving DecidableEq, Repr

/-- The constraints of R9 a configuration must meet, with the four widths at the values this model's types have
(spec/93_implementation_defined.md I1; notes/assumptions/4.md). -/
abbrev Config.Valid (c : Config) : Prop :=
  (c.nCh = 16 ∧ c.tcntW = 16 ∧ c.pwW = 16 ∧ c.remW = 32) ∧
  (1 ≤ c.minPulse ∧ c.minPulse < c.maxPulseExcl ∧ c.maxPulseExcl ≤ 65535) ∧
  (c.minPulse ≤ c.pwReset ∧ c.pwReset < c.maxPulseExcl) ∧
  1 ≤ c.minDelay ∧
  (0 < c.early ∧ c.early < 2 ^ 15) ∧
  (1 ≤ c.divT1 ∧ c.divT1 ≤ 255) ∧
  (1 ≤ c.divT2 ∧ c.divT2 ≤ 255) ∧
  (1 ≤ c.divT3 ∧ c.divT3 ≤ 255) ∧
  (1 ≤ c.divPeriod ∧ c.divPeriod ≤ 65535)

/-- `DIV_PERIOD - 1`: OPEN over 0..65534, so that `DIV_PERIOD` is OPEN over exactly 1..65535 (R7, R9; D19). -/
opaque Config.openDivPeriodLessOne : Fin 65535

/-- `P_STOP_DISABLES_DIVIDER`: OPEN (R7; D17). -/
opaque Config.openStopDisablesDivider : Bool

/-- Numerator less one of `TICK_HZ`: OPEN (R7; D2). -/
opaque Config.openTickHzNum : Nat

/-- Denominator less one of `TICK_HZ`: OPEN (R7; D2). -/
opaque Config.openTickHzDen : Nat

/-- `CMD_PORT_BASE`: OPEN (R61; D10). -/
opaque Config.openCmdPortBase : Nat

/-- This hardware's configuration: the values of R7's table, the OPEN ones left open. -/
def Config.hw : Config where
  nCh := 16
  tcntW := 16
  pwW := 16
  remW := 32
  minPulse := 600
  maxPulseExcl := 2400
  pwReset := 1500
  minDelay := 17
  early := 10000
  divT1 := 10
  divT2 := 25
  divT3 := 4
  divPeriod := Config.openDivPeriodLessOne.val + 1
  stopDisablesDivider := Config.openStopDisablesDivider
  tickHz := ((Config.openTickHzNum + 1 : Nat) : Rat) / ((Config.openTickHzDen + 1 : Nat) : Rat)
  cmdPortBase := Config.openCmdPortBase

/-- `Config.hw` with the OPEN parameters given: the form in which the spec's test vectors fix them
(spec/95_test_vectors.md, conventions). -/
def Config.hwWith (divPeriod : Nat) (stopDisablesDivider : Bool) : Config :=
  { Config.hw with divPeriod := divPeriod, stopDisablesDivider := stopDisablesDivider }

end Sys2Proof
end

