-- ==== Sys2Proof/Machine/State.lean ====
section
/-! DEFINITION. The machine's state: the state record of spec/10_state.md R20, and beside it the model's own fields:
the inputs still to come (spec/20_memory.md R68, R69) and the outputs of the last transition (spec/10_state.md R43,
spec/30_encoding.md R86). Reset is spec/70_reset_and_hazards.md R230. -/

namespace Sys2Proof.Machine

/-- The output events of R43. -/
inductive Event where
  /-- `STEP_FIRE`: a real step began. -/
  | stepFire
  /-- `STEP_WRAP`: an intermediate wrap consumed 2^16 ticks of `REM`. -/
  | stepWrap
  /-- `DIV_EVENT`: a divider base period elapsed. -/
  | divEvent
  /-- `MUX_BOUNDARY(i)`: a slot for channel `i` began. -/
  | muxBoundary (i : BitVec 4)
  /-- `WDT_KICK`: the watchdog-reset call. -/
  | wdtKick
deriving DecidableEq, Repr

/-- One transition of some agent (spec/00_scope.md R15), or a reset (R233). The command port does not know which agent
sent a command (spec/60_exceptions.md R215), so a command carries its word alone. -/
inductive Input where
  /-- The tick agent's TICK (spec/40_tick_source.md R101). -/
  | tick
  /-- A command word, from the host or the step collaborator (R80). -/
  | command (w : CommandWord)
  /-- RESET (R230). -/
  | reset
deriving DecidableEq, Repr

/-- The state record of R20: "The block's whole state is the record below and nothing else". -/
structure Regs where
  /-- `PW[0..15]`, the pulse-width table (R23). -/
  pw : Vector Ticks 16
  /-- `IDX`, the channel whose slot is in progress (R24). -/
  idx : BitVec 4
  /-- `PERIOD`, the length of the slot in progress (R25). -/
  period : Ticks
  /-- `PULSE`, the offset in the slot at which the servo output falls (R26). -/
  pulse : Ticks
  /-- `SCNT`, ticks since the slot started (R27). -/
  scnt : Ticks
  /-- `TCNT`, the free-running tick counter (R28). -/
  tcnt : Ticks
  /-- `OCR_S`, the step compare register (R29). -/
  ocrS : Ticks
  /-- `REM`, remaining_delay (R30). -/
  rem : BitVec 32
  /-- `STEP_EN`, the step channel's enable (R31). -/
  stepEn : Bool
  /-- `DEFERRED`, the enable requested and not yet committed (R32). -/
  deferred : Bool
  /-- `IN_STEP`, a step callback in progress (R33). -/
  inStep : Bool
  /-- `OCR_D`, the divider compare register (R36). -/
  ocrD : Ticks
  /-- `DIV_EN`, the divider channel's enable (R37). -/
  divEn : Bool
  /-- `CNT_MS`, base periods (R38). -/
  cntMs : BitVec 8
  /-- `CNT_10MS`, 10 ms flags (R38). -/
  cnt10ms : BitVec 8
  /-- `CNT_250MS`, 250 ms flags (R38). -/
  cnt250ms : BitVec 8
  /-- `F10MS` (R39). -/
  f10ms : Bool
  /-- `F250MS` (R39). -/
  f250ms : Bool
  /-- `F1S` (R39). -/
  f1s : Bool
deriving DecidableEq, Repr

/-- The machine: R20's record and the model's own three fields. -/
structure State where
  /-- The state record of R20. -/
  regs : Regs
  /-- The transitions still to come, the next one first: one total order over all agents (R68). The model's own field:
  which agent steps next is free (R46), so a claim is made for every list. When it is empty the tick agent steps
  (spec/40_tick_source.md R100; notes/assumptions/1.md). -/
  inputs : List Input
  /-- The response word of the last transition, if it was a command (R86). The model's own field. -/
  response : Option ResponseWord
  /-- The event list of the last transition (R43). The model's own field. -/
  events : List Event
deriving DecidableEq, Repr

/-- Machine faults. There are none: "Nothing in the block is fatal", "No error stops the block"
(spec/60_exceptions.md R202). A command error is a response, not a stop. Safe. -/
inductive Fault where
deriving DecidableEq, Repr

/-- Refusals: what the model gives no meaning. -/
inductive Refusal where
  /-- An instruction rejected by name in `exec`: raised by no arm, since every instruction has its meaning. Safe. -/
  | notModelled (mnemonic : String)
  /-- A configuration that breaks a constraint of spec/00_scope.md R9, "is refused: the model has no meaning for it":
  raised by `powerOn` only, never by a step. Safe. -/
  | badConfiguration
deriving DecidableEq, Repr

/-- The "reset" column of R20, for a configuration. -/
def Regs.reset (c : Config) : Regs where
  pw := Vector.replicate 16 (BitVec.ofNat 16 c.pwReset)
  idx := 0#4
  period := BitVec.ofNat 16 (c.pwReset + 1)
  pulse := BitVec.ofNat 16 c.pwReset
  scnt := 0#16
  tcnt := 0#16
  ocrS := 0#16
  rem := 0#32
  stepEn := false
  deferred := false
  inStep := false
  ocrD := BitVec.ofNat 16 c.divPeriod
  divEn := true
  cntMs := 0#8
  cnt10ms := 0#8
  cnt250ms := 0#8
  f10ms := false
  f250ms := false
  f1s := false

/-- The state right after reset of a block with the given configuration, no input placed and no output given:
RESET "emits no event" (R230). -/
def State.resetAt (c : Config) : State where
  regs := Regs.reset c
  inputs := []
  response := none
  events := []

/-- This hardware right after reset (R20, R230). -/
def State.reset : State := State.resetAt Config.hw

end Sys2Proof.Machine
end

