-- ==== Sys2Proof/Machine/Ops.lean ====
section
/-! DEFINITION. The operations every rule is written in: responding and raising an error (spec/00_scope.md R13,
spec/30_encoding.md R82, R83, R86), the pulse-width table (spec/20_memory.md R60), the step event's entry and return
(spec/42_deadline_scheduler.md R134, R137) and the deferred enable's commit (R136), and reset. -/

namespace Sys2Proof.Machine

/-! ### Responses and errors -/

/-- The status codes of R83. -/
inductive Status where
  | ok
  | errIllegal
  | errRange
  | errState
deriving DecidableEq, Repr

/-- The code of a status (R83). -/
def Status.code : Status → BitVec 8
  | .ok => 0x00#8
  | .errIllegal => 0x01#8
  | .errRange => 0x02#8
  | .errState => 0x03#8

/-- The response word `{status[7:0], data[31:0]}` (R82, R86). -/
def responseWord (st : Status) (data : BitVec 32) : ResponseWord := st.code ++ data

/-- `STATUS` of a response word (R82). -/
def statusField (w : ResponseWord) : BitVec 8 := w.extractLsb' 32 8

/-- `DATA` of a response word (R82). -/
def dataField (w : ResponseWord) : BitVec 32 := w.extractLsb' 0 32

/-- What a command does to the state record: the new record and the result value, or an error. An error carries no
record, so every state write of the command is discarded with it (R13). -/
abbrev CmdResult := Except Status (Regs × BitVec 32)

/-- `respond(OK, data)` (R13, R86). -/
def respond (r : Regs) (data : BitVec 32) : CmdResult := .ok (r, data)

/-- `raise ERR_x`: "discard every state write of the command, and respond(ERR_x, 0)" (R13). The one way an error is
taken (spec/60_exceptions.md R200, R201). -/
def raise (e : Status) : CmdResult := .error e

/-- The end of a command: its one response (R86); no command emits an event (R43, R201). -/
def complete (res : CmdResult) (s : State) : State :=
  match res with
  | .ok (r, data) => { s with regs := r, response := some (responseWord .ok data), events := [] }
  | .error e => { s with response := some (responseWord e 0#32), events := [] }

/-- A command run from the state record as one atomic transition (spec/20_memory.md R65). -/
def runCommand (cmd : Regs → CmdResult) (s : State) : State := complete (cmd s.regs) s

/-- A word that is no command: ERR_ILLEGAL, and nothing changes (R84, R88). -/
def illegalWord (s : State) : State := complete (raise .errIllegal) s

/-! ### The pulse-width table -/

/-- `PW[i]` (R12, R60). -/
def readPw (r : Regs) (i : Fin 16) : Ticks := r.pw[i]

/-- `PW[i] <- v` (R12, R60). -/
def writePw (r : Regs) (i : Fin 16) (v : Ticks) : Regs := { r with pw := r.pw.set i v }

/-! ### Events inside a TICK -/

/-- What an event of a TICK does: the new record and the events it emits, in order (R43). -/
abbrev EventResult := Regs × List Event

/-- COMMIT, the deferred enable's commit (R136). -/
def commit (r : Regs) : Regs := { r with stepEn := true, deferred := false }

/-- REAL_STEP, the entry of the step event: "An event saves no state, changes no mode and uses no vector table or
stack" (spec/60_exceptions.md R209); `REM` and `OCR_S` are kept (R134). -/
def realStep (r : Regs) : EventResult :=
  ({ r with inStep := true, stepEn := false, deferred := false }, [.stepFire])

/-- The return from the step event: lower `IN_STEP` and enable the channel "only if" an ARM came meanwhile
(R137; spec/60_exceptions.md R210). -/
def stepReturn (r : Regs) : Regs :=
  let lowered := { r with inStep := false }
  if lowered.deferred then { lowered with stepEn := true, deferred := false } else lowered

/-- The end of a TICK: no response, and the TICK's event list (R43, R101). -/
def endTick (res : EventResult) (s : State) : State :=
  { s with regs := res.1, response := none, events := res.2 }

/-! ### Reset -/

/-- RESET: "sets every element of the state record to its "reset" value [...] all at once, and emits no event" (R230).
The inputs still to come are the environment's and stay (R233: reset may come between any two transitions). -/
def resetTransition (s : State) : State :=
  { s with regs := Regs.reset Config.hw, response := none, events := [] }

end Sys2Proof.Machine
end

