-- ==== Sys2Proof/Machine/Operands.lean ====
section
/-! DEFINITION. Operand assembly and legality: the three index spaces of spec/20_memory.md R60 and the checks of
spec/41_pulse_width_mux.md R110, R111, spec/42_deadline_scheduler.md R130, spec/43_tick_divider.md R165 and
spec/44_register_read.md R180. Each operand is its field, unsigned (spec/30_encoding.md R85). -/

namespace Sys2Proof.Machine

/-- The channel space: 0-15 name `PW[0..15]`, the rest name nothing (R60). -/
def channelOf (sel : BitVec 8) : Option (Fin 16) :=
  if h : sel.toNat < 16 then some ⟨sel.toNat, h⟩ else none

/-- SETPW's value `v[15:0]`, if `v`, on all 32 bits, lies in `[MIN_PULSE, MAX_PULSE_EXCL)` (R85, R110). -/
def pulseOf (c : Config) (v : BitVec 32) : Option Ticks :=
  if v.toNat < c.minPulse ∨ c.maxPulseExcl ≤ v.toNat then none else some (v.setWidth 16)

/-- ARM's clamped delay `d' = max(d, MIN_DELAY)`, a natural (R130). -/
def delayOf (c : Config) (d : BitVec 32) : Nat := max d.toNat c.minDelay

/-- The three divider flags (R39). -/
inductive FlagName where
  | f10ms
  | f250ms
  | f1s
deriving DecidableEq, Repr

/-- The flag space: 0, 1, 2 name `F10MS`, `F250MS`, `F1S`; the rest name nothing (R60). -/
def flagOf (sel : BitVec 8) : Option FlagName :=
  match sel.toNat with
  | 0 => some .f10ms
  | 1 => some .f250ms
  | 2 => some .f1s
  | _ => none

/-- The register space: the numbers of spec/10_state.md R44; 0x1F-0xFF are reserved. -/
def registerOf (sel : BitVec 8) : Option RegName :=
  if h : sel.toNat < 16 then some (.pw ⟨sel.toNat, h⟩)
  else
    match sel.toNat with
    | 0x10 => some .idx
    | 0x11 => some .period
    | 0x12 => some .pulse
    | 0x13 => some .scnt
    | 0x14 => some .tcnt
    | 0x15 => some .ocrS
    | 0x16 => some .rem
    | 0x17 => some .sched
    | 0x18 => some .ocrD
    | 0x19 => some .divctl
    | 0x1A => some .cntMs
    | 0x1B => some .cnt10ms
    | 0x1C => some .cnt250ms
    | 0x1D => some .flags
    | 0x1E => some .pins
    | _ => none

end Sys2Proof.Machine
end

