-- ==== Sys2Proof/Machine/Flags.lean ====
section
/-! DEFINITION. The flags and the packed registers: reading and clearing a divider flag (spec/43_tick_divider.md R165),
the subtract-on-threshold counter (R161), the output levels (spec/10_state.md R41), the packing of SCHED, DIVCTL,
FLAGS and PINS (R34, R37, R39, R42), and the scheduler's state classes (R35). -/

namespace Sys2Proof.Machine

/-! ### Divider flags and counters -/

/-- The value of a flag. -/
def readFlag (f : FlagName) (r : Regs) : Bool :=
  match f with
  | .f10ms => r.f10ms
  | .f250ms => r.f250ms
  | .f1s => r.f1s

/-- The record with a flag cleared (R165). -/
def clearFlag (f : FlagName) (r : Regs) : Regs :=
  match f with
  | .f10ms => { r with f10ms := false }
  | .f250ms => { r with f250ms := false }
  | .f1s => { r with f1s := false }

/-- One counter stage of R161: add 1; at the threshold subtract it. The Bool says that the threshold was reached. -/
def countStage (cnt : BitVec 8) (threshold : Nat) : BitVec 8 × Bool :=
  let n := cnt.toNat + 1
  if threshold ≤ n then (BitVec.ofNat 8 (n - threshold), true) else (BitVec.ofNat 8 n, false)

/-! ### Output levels -/

/-- `SERVO_OUT = 1` if `SCNT < PULSE` (R41). -/
def servoOut (r : Regs) : Bool := decide (r.scnt.toNat < r.pulse.toNat)

/-- `ADDR[3:0] = IDX` (R41). -/
def addrOut (r : Regs) : BitVec 4 := r.idx

/-- `STEP_OUT = IN_STEP` (R41). -/
def stepOut (r : Regs) : Bool := r.inStep

/-! ### Packed registers -/

/-- SCHED: bit 0 `STEP_EN`, bit 1 `DEFERRED`, bit 2 `IN_STEP`, bits 31:3 read 0 (R34). -/
def schedWord (r : Regs) : BitVec 32 :=
  (BitVec.ofBool r.inStep ++ BitVec.ofBool r.deferred ++ BitVec.ofBool r.stepEn).setWidth 32

/-- DIVCTL: bit 0 `DIV_EN`, other bits read 0 (R37). -/
def divctlWord (r : Regs) : BitVec 32 := (BitVec.ofBool r.divEn).setWidth 32

/-- FLAGS: bit 0 `F10MS`, bit 1 `F250MS`, bit 2 `F1S`, bits 31:3 read 0 (R39). -/
def flagsWord (r : Regs) : BitVec 32 :=
  (BitVec.ofBool r.f1s ++ BitVec.ofBool r.f250ms ++ BitVec.ofBool r.f10ms).setWidth 32

/-- PINS: bit 0 `SERVO_OUT`, bit 1 `STEP_OUT`, bits 3:2 read 0, bits 7:4 `ADDR`, bits 31:8 read 0 (R42). -/
def pinsWord (r : Regs) : BitVec 32 :=
  (addrOut r ++ 0#2 ++ BitVec.ofBool (stepOut r) ++ BitVec.ofBool (servoOut r)).setWidth 32

/-! ### Scheduler state classes (a reading, not extra state) -/

/-- The source's scheduler states (R35). -/
inductive SchedClass where
  | idle
  | armedSingle
  | armedMulti
  | fired
deriving DecidableEq, Repr

/-- The class of a record, by the table of R35. -/
def schedClass (r : Regs) : SchedClass :=
  if r.inStep then .fired
  else if r.stepEn || r.deferred then
    if r.rem.toNat < 2 ^ 16 then .armedSingle else .armedMulti
  else .idle

/-- The design note's tri-state (R35): `(STEP_EN, DEFERRED)` at (0,0), (0,1), (1,0). -/
inductive EnableState where
  | disabled
  | armedPending
  | enabled
deriving DecidableEq, Repr

/-- The tri-state of a record; none for the pair (1,1), which is unreachable (R35, R45 item 5). -/
def enableState (r : Regs) : Option EnableState :=
  match r.stepEn, r.deferred with
  | false, false => some .disabled
  | false, true => some .armedPending
  | true, false => some .enabled
  | true, true => none

end Sys2Proof.Machine
end

