-- ==== Sys2Proof/Machine/Divider.lean ====
section
/-! DEFINITION. The periodic tick divider: DIV_MATCH (spec/43_tick_divider.md R160, R161, R163) and TSTCLR (R165). -/

namespace Sys2Proof.Machine

/-- The third stage of R161's cascade, run when a 250 ms flag is set. -/
def divStage250 (c : Config) (r : Regs) : Regs :=
  let n := countStage r.cnt250ms c.divT3
  { r with cnt250ms := n.1, f1s := r.f1s || n.2 }

/-- The second stage, run when a 10 ms flag is set. -/
def divStage10 (c : Config) (r : Regs) : Regs :=
  let n := countStage r.cnt10ms c.divT2
  let r := { r with cnt10ms := n.1, f250ms := r.f250ms || n.2 }
  if n.2 then divStage250 c r else r

/-- The first stage, run by every divider event. -/
def divStageMs (c : Config) (r : Regs) : Regs :=
  let n := countStage r.cntMs c.divT1
  let r := { r with cntMs := n.1, f10ms := r.f10ms || n.2 }
  if n.2 then divStage10 c r else r

/-- DIV_MATCH (R161): re-arm additively, run the cascade, emit DIV_EVENT and WDT_KICK. -/
def divMatch (c : Config) (r : Regs) : EventResult :=
  (divStageMs c { r with ocrD := r.ocrD + BitVec.ofNat 16 c.divPeriod }, [.divEvent, .wdtKick])

/-- R165: read one flag and clear it. -/
def tstclr (f : BitVec 8) (r : Regs) : CmdResult :=
  match flagOf f with
  | none => raise .errRange
  | some flag => respond (clearFlag flag r) ((BitVec.ofBool (readFlag flag r)).setWidth 32)

/-- TSTCLR (R165). -/
def execTstclr (f : BitVec 8) (s : State) : Host.Outcome State Fault Refusal :=
  .next (runCommand (tstclr f) s)

end Sys2Proof.Machine
end

