-- ==== Sys2Proof/Machine/Multiplexer.lean ====
section
/-! DEFINITION. The pulse-width multiplexer: SETPW and GETPW (spec/41_pulse_width_mux.md R110, R111), SLOT_TICK and
SLOT_BOUNDARY (R112, R113). -/

namespace Sys2Proof.Machine

/-- R110, for a configuration: the channel check, then the value check, then the table write. -/
def setpw (c : Config) (ch : BitVec 8) (v : BitVec 32) (r : Regs) : CmdResult :=
  match channelOf ch with
  | none => raise .errRange
  | some i =>
    match pulseOf c v with
    | none => raise .errRange
    | some w => respond (writePw r i w) 0#32

/-- R111: the table entry, zero-extended to 32 bits. -/
def getpw (ch : BitVec 8) (r : Regs) : CmdResult :=
  match channelOf ch with
  | none => raise .errRange
  | some i => respond r ((readPw r i).setWidth 32)

/-- SETPW (R110). -/
def execSetpw (ch : BitVec 8) (v : BitVec 32) (s : State) : Host.Outcome State Fault Refusal :=
  .next (runCommand (setpw Config.hw ch v) s)

/-- GETPW (R111). -/
def execGetpw (ch : BitVec 8) (s : State) : Host.Outcome State Fault Refusal :=
  .next (runCommand (getpw ch) s)

/-- SLOT_BOUNDARY (R113): restart the slot counter, advance `IDX` modulo 16, and take the new channel's width. -/
def slotBoundary (r : Regs) : EventResult :=
  let idx := r.idx + 1#4
  let v := readPw r idx.toFin
  ({ r with scnt := 0#16, idx := idx, period := v + 1#16, pulse := v }, [.muxBoundary idx, .wdtKick])

/-- SLOT_TICK (R112), the last part of every TICK. -/
def slotTick (r : Regs) : EventResult :=
  let r := { r with scnt := r.scnt + 1#16 }
  if r.scnt = r.period then slotBoundary r else (r, [])

end Sys2Proof.Machine
end

