-- ==== Sys2Proof/Machine/Registers.lean ====
section
/-! DEFINITION. The register map and RDREG (spec/10_state.md R44, spec/44_register_read.md R180). -/

namespace Sys2Proof.Machine

/-- `value(r)`: the register's content as R44 lays it out, zero-extended to 32 bits. -/
def registerValue (n : RegName) (r : Regs) : BitVec 32 :=
  match n with
  | .pw i => (readPw r i).setWidth 32
  | .idx => r.idx.setWidth 32
  | .period => r.period.setWidth 32
  | .pulse => r.pulse.setWidth 32
  | .scnt => r.scnt.setWidth 32
  | .tcnt => r.tcnt.setWidth 32
  | .ocrS => r.ocrS.setWidth 32
  | .rem => r.rem
  | .sched => schedWord r
  | .ocrD => r.ocrD.setWidth 32
  | .divctl => divctlWord r
  | .cntMs => r.cntMs.setWidth 32
  | .cnt10ms => r.cnt10ms.setWidth 32
  | .cnt250ms => r.cnt250ms.setWidth 32
  | .flags => flagsWord r
  | .pins => pinsWord r

/-- R180. -/
def rdreg (sel : BitVec 8) (r : Regs) : CmdResult :=
  match registerOf sel with
  | none => raise .errRange
  | some n => respond r (registerValue n r)

/-- RDREG (R180). -/
def execRdreg (sel : BitVec 8) (s : State) : Host.Outcome State Fault Refusal :=
  .next (runCommand (rdreg sel) s)

end Sys2Proof.Machine
end

