-- ==== Sys2Proof/Machine/Scheduler.lean ====
section
/-! DEFINITION. The extended-range deadline scheduler: ARM, STOP and STEPDONE (spec/42_deadline_scheduler.md R130, R132,
R137), STEP_MATCH and INTERMEDIATE_WRAP (R133, R135). REAL_STEP, the return from it and COMMIT are in Ops. -/

namespace Sys2Proof.Machine

/-- The three-way split that ARM makes from its baseline (R130) and INTERMEDIATE_WRAP from `OCR_S` (R135): a direct
offset, the early-fire trick, or the next wrap at the baseline itself. `n` is the delay still to run. -/
def programSegment (c : Config) (base : Ticks) (n : Nat) (r : Regs) : Regs :=
  if n < 2 ^ 16 then
    { r with ocrS := base + BitVec.ofNat 16 n, rem := BitVec.ofNat 32 n }
  else if n < 2 ^ 16 + c.early then
    { r with ocrS := base - BitVec.ofNat 16 c.early, rem := BitVec.ofNat 32 (n + c.early) }
  else
    { r with ocrS := base, rem := BitVec.ofNat 32 n }

/-- ARM's baseline: `TCNT` for a new move, the last deadline within one (R30, R130). -/
def armBase (r : Regs) : Ticks := if r.rem = 0#32 then r.tcnt else r.ocrS

/-- R130, for a configuration. -/
def arm (c : Config) (d : BitVec 32) (r : Regs) : CmdResult :=
  let r := { r with divEn := true, stepEn := false }
  if d = 0#32 then respond { r with rem := 0#32, deferred := false } 0#32
  else respond { programSegment c (armBase r) (delayOf c d) r with deferred := true } 0#32

/-- R132, for a configuration: `REM`, `OCR_S` and `IN_STEP` are kept. -/
def stop (c : Config) (r : Regs) : CmdResult :=
  respond { r with
    stepEn := false
    deferred := false
    divEn := if c.stopDisablesDivider then false else r.divEn } 0#32

/-- R137. -/
def stepdone (r : Regs) : CmdResult :=
  if r.inStep then respond (stepReturn r) 0#32 else raise .errState

/-- ARM (R130). -/
def execArm (d : BitVec 32) (s : State) : Host.Outcome State Fault Refusal :=
  .next (runCommand (arm Config.hw d) s)

/-- STOP (R132). -/
def execStop (s : State) : Host.Outcome State Fault Refusal :=
  .next (runCommand (stop Config.hw) s)

/-- STEPDONE (R137). -/
def execStepdone (s : State) : Host.Outcome State Fault Refusal :=
  .next (runCommand stepdone s)

/-- INTERMEDIATE_WRAP (R135): one wrap of 2^16 ticks is consumed and the rest is programmed; `STEP_EN` stays 1. -/
def intermediateWrap (c : Config) (r : Regs) : EventResult :=
  (programSegment c r.ocrS (r.rem.toNat - 2 ^ 16) r, [.stepWrap])

/-- STEP_MATCH (R133). -/
def stepMatch (c : Config) (r : Regs) : EventResult :=
  if r.rem.toNat < 2 ^ 16 then realStep r else intermediateWrap c r

end Sys2Proof.Machine
end

