-- ==== Sys2Proof/Machine/Dispatch.lean ====
section
/-! DEFINITION. One arm per command (spec/30_encoding.md R84, R87). -/

namespace Sys2Proof.Machine

/-- The meaning of a command, by R84. -/
def exec (i : Instr) (s : State) : Host.Outcome State Fault Refusal :=
  match i with
  | .setpw ch v => Sys2Proof.Machine.execSetpw ch v s
  | .getpw ch => Sys2Proof.Machine.execGetpw ch s
  | .arm d => Sys2Proof.Machine.execArm d s
  | .stop => Sys2Proof.Machine.execStop s
  | .tstclr f => Sys2Proof.Machine.execTstclr f s
  | .rdreg r => Sys2Proof.Machine.execRdreg r s
  | .stepdone => Sys2Proof.Machine.execStepdone s

end Sys2Proof.Machine
end

