-- ==== Sys2Proof/Machine/Tick.lean ====
section
/-! DEFINITION. The TICK transition (spec/40_tick_source.md R101): its five parts in the order R101 fixes. Each part
reads the record as the parts before it left it. -/

namespace Sys2Proof.Machine

/-- `TCNT <- TCNT +16 1` (R101, R104). -/
def countTick (r : Regs) : Regs := { r with tcnt := r.tcnt + 1#16 }

/-- `if DEFERRED = 1 and IN_STEP = 0 then COMMIT` (R101, R136). -/
def commitPart (r : Regs) : Regs := if r.deferred && !r.inStep then commit r else r

/-- `if STEP_EN = 1 and TCNT = OCR_S then STEP_MATCH` (R101, R103, R133). -/
def stepPart (c : Config) (r : Regs) : EventResult :=
  if r.stepEn ∧ r.tcnt = r.ocrS then stepMatch c r else (r, [])

/-- `if DIV_EN = 1 and TCNT = OCR_D then DIV_MATCH` (R101, R103, R160). -/
def divPart (c : Config) (r : Regs) : EventResult :=
  if r.divEn ∧ r.tcnt = r.ocrD then divMatch c r else (r, [])

/-- TICK (R101), for a configuration: the new record and the event list in R102's order. -/
def tick (c : Config) (r : Regs) : EventResult :=
  let stepped := stepPart c (commitPart (countTick r))
  let divided := divPart c stepped.1
  let slotted := slotTick divided.1
  (slotted.1, stepped.2 ++ divided.2 ++ slotted.2)

/-- A TICK of this hardware as one atomic transition (spec/20_memory.md R65). -/
def tickTransition (s : State) : State := endTick (tick Config.hw s.regs) s

end Sys2Proof.Machine
end

