-- ==== Sys2Proof/Machine/Step.lean ====
section
/-! DEFINITION. One step: the next transition of the total order (spec/20_memory.md R68, R69). -/

namespace Sys2Proof.Machine

/-- R84: a command word is decoded and run, or answered ERR_ILLEGAL. -/
def runWord (w : CommandWord) (s : State) : Host.Outcome State Fault Refusal :=
  match decode w with
  | .ok i => exec i s
  | .error _ => .next (illegalWord s)

/-- One transition: the first of the inputs to come; a TICK when none is placed, since "The tick agent always has an
enabled step" (spec/40_tick_source.md R100; notes/assumptions/1.md). -/
def step (s : State) : Host.Outcome State Fault Refusal :=
  match s.inputs with
  | [] => .next (tickTransition s)
  | .tick :: rest => .next (tickTransition { s with inputs := rest })
  | .command w :: rest => runWord w { s with inputs := rest }
  | .reset :: rest => .next (resetTransition { s with inputs := rest })

/-- The state in which the opcode table's word `w` is the next command at the port (notes/assumptions/2.md). -/
def State.withFetchWord (s : State) (nbits w : Nat) : State :=
  { s with inputs := .command (tableWord nbits w) :: s.inputs }

end Sys2Proof.Machine
end

