-- ==== Sys2Proof/Machine/Assembler.lean ====
section
/-! DEFINITION. The assembler text of spec/30_encoding.md R91 and the pseudo-instructions of R92: one command per line,
the mnemonic, then operands separated by commas; `;` starts a comment; numbers are decimal or `0x` hexadecimal. A line
is a list of characters, so that the kernel can evaluate it. -/

namespace Sys2Proof.Machine

/-- A token of a line: a run of other characters, or a comma. -/
inductive AsmToken where
  | word (text : String)
  | comma
deriving DecidableEq, Repr

/-- A word in progress, closed: no token when it is empty. The characters come last first. -/
def closeWord (pending : List Char) (later : List AsmToken) : List AsmToken :=
  if pending.isEmpty then later else .word (String.ofList pending.reverse) :: later

/-- The tokens of a line up to its comment. -/
def asmTokens : List Char → List Char → List AsmToken
  | pending, [] => closeWord pending []
  | pending, ch :: rest =>
    if ch = ';' then closeWord pending []
    else if ch = ',' then closeWord pending (.comma :: asmTokens [] rest)
    else if ch = ' ' ∨ ch = '\t' then closeWord pending (asmTokens [] rest)
    else asmTokens (ch :: pending) rest

/-- The value of a digit in a base of at most 16, if the character is one. -/
def digitValue (base : Nat) (ch : Char) : Option Nat :=
  let n := ch.toNat
  let v :=
    if 48 ≤ n ∧ n ≤ 57 then some (n - 48)
    else if 65 ≤ n ∧ n ≤ 70 then some (n - 55)
    else if 97 ≤ n ∧ n ≤ 102 then some (n - 87)
    else none
  match v with
  | some d => if d < base then some d else none
  | none => none

/-- The number the digits continue, if each is one. -/
def digitsFrom (base : Nat) : Nat → List Char → Option Nat
  | acc, [] => some acc
  | acc, ch :: rest =>
    match digitValue base ch with
    | some d => digitsFrom base (acc * base + d) rest
    | none => none

/-- A number: decimal, or hexadecimal after `0x` (R91). -/
def asmNumber (text : String) : Option Nat :=
  match text.toList with
  | [] => none
  | ['0', 'x'] => none
  | '0' :: 'x' :: digits => digitsFrom 16 0 digits
  | digits => digitsFrom 10 0 digits

/-- The names TSTCLR takes (R91). -/
def flagNumberNamed (text : String) : Option Nat :=
  match text with
  | "F10MS" => some 0
  | "F250MS" => some 1
  | "F1S" => some 2
  | _ => none

/-- The names RDREG takes: the "name" column of spec/10_state.md R44, by number. -/
def registerNames : List (String × Nat) :=
  [("PW0", 0x00), ("PW1", 0x01), ("PW2", 0x02), ("PW3", 0x03), ("PW4", 0x04), ("PW5", 0x05), ("PW6", 0x06),
    ("PW7", 0x07), ("PW8", 0x08), ("PW9", 0x09), ("PW10", 0x0A), ("PW11", 0x0B), ("PW12", 0x0C), ("PW13", 0x0D),
    ("PW14", 0x0E), ("PW15", 0x0F), ("IDX", 0x10), ("PERIOD", 0x11), ("PULSE", 0x12), ("SCNT", 0x13),
    ("TCNT", 0x14), ("OCR_S", 0x15), ("REM", 0x16), ("SCHED", 0x17), ("OCR_D", 0x18), ("DIVCTL", 0x19),
    ("CNT_MS", 0x1A), ("CNT_10MS", 0x1B), ("CNT_250MS", 0x1C), ("FLAGS", 0x1D), ("PINS", 0x1E)]

/-- The register number a name stands for. -/
def registerNumberNamed (text : String) : Option Nat :=
  (registerNames.find? fun entry => entry.1 == text).map Prod.snd

/-- A line's tokens as an assembler line, by the forms of R91 and R92. -/
def asmOfTokens : List AsmToken → Option Asm
  | [.word m] =>
    match m with
    | "STOP" => some .stop
    | "STEPDONE" => some .stepdone
    | "CANCEL" => some .cancel
    | _ => none
  | [.word m, .word a] =>
    match m with
    | "GETPW" => (asmNumber a).map .getpw
    | "ARM" => (asmNumber a).map .arm
    | "TSTCLR" => ((flagNumberNamed a).or (asmNumber a)).map .tstclr
    | "RDREG" => ((registerNumberNamed a).or (asmNumber a)).map .rdreg
    | "WAIT" => (asmNumber a).map .wait
    | _ => none
  | [.word m, .word a, .comma, .word b] =>
    match m, asmNumber a, asmNumber b with
    | "SETPW", some ch, some v => some (.setpw ch v)
    | _, _, _ => none
  | _ => none

/-- What a line makes the agents do: one command, or the TICKs of a WAIT (R92). -/
def asmInputs (a : Asm) : Option (List Input) :=
  match a with
  | .wait n => some (List.replicate n .tick)
  | other => (assemble other).map fun w => [.command w]

/-- The inputs of one line of text; a line with no token has none. None where the line is not of R91's forms, or a
number does not fit its field. -/
def assembleLine (line : List Char) : Option (List Input) :=
  match asmTokens [] line with
  | [] => some []
  | tokens =>
    match asmOfTokens tokens with
    | some a => asmInputs a
    | none => none

/-- The inputs of a program: a sequence of commands placed in time (spec/95_test_vectors.md section 3). -/
def assembleProgram : List String → Option (List Input)
  | [] => some []
  | line :: rest =>
    match assembleLine line.toList, assembleProgram rest with
    | some first, some later => some (first ++ later)
    | _, _ => none

end Sys2Proof.Machine
end

