-- ==== Sys2Proof/Machine/Configured.lean ====
section
/-! DEFINITION. The machine at any configuration: configuration time (spec/00_scope.md R9; spec/70_reset_and_hazards.md
R234) and one step, "a model can then be re-run with audited values" (spec/92_eei_decisions.md D29). That the step
of this hardware, `step`, is `stepAt Config.hw` is the obligation `StepIsTheConfiguredStep`. -/

namespace Sys2Proof.Machine

/-- Configuration time: the reset state of a configuration that meets R9; one that breaks it is refused (R9, I9). -/
def powerOn (c : Config) : Host.Outcome State Fault Refusal :=
  if c.Valid then .next (State.resetAt c) else .refused .badConfiguration

/-- What each command does to the state record (R84). -/
def commandAt (c : Config) (i : Instr) : Regs → CmdResult :=
  match i with
  | .setpw ch v => setpw c ch v
  | .getpw ch => getpw ch
  | .arm d => arm c d
  | .stop => stop c
  | .tstclr f => tstclr f
  | .rdreg r => rdreg r
  | .stepdone => stepdone

/-- What a command word does to the state record: R84, with ERR_ILLEGAL for a word that is no command. -/
def commandWordAt (c : Config) (w : CommandWord) : Regs → CmdResult :=
  match decode w with
  | .ok i => commandAt c i
  | .error _ => fun _ => raise .errIllegal

/-- One transition at a configuration: the next input, or a TICK when none is placed. -/
def stepAt (c : Config) (s : State) : State :=
  match s.inputs with
  | [] => endTick (tick c s.regs) s
  | .tick :: rest => endTick (tick c s.regs) { s with inputs := rest }
  | .command w :: rest => runCommand (commandWordAt c w) { s with inputs := rest }
  | .reset :: rest => { regs := Regs.reset c, inputs := rest, response := none, events := [] }

/-- `n` transitions at a configuration. -/
def runAt (c : Config) : Nat → State → State
  | 0, s => s
  | n + 1, s => runAt c n (stepAt c s)

end Sys2Proof.Machine
end

