-- ==== Sys2Proof/Safety.lean ====
section
/-! DEFINITION. What a good state and a good run are: the invariants of spec/10_state.md R45, the words of the
whole-run guarantees (spec/42_deadline_scheduler.md R140, R141; spec/41_pulse_width_mux.md R115), and the fairness of
spec/70_reset_and_hazards.md R246. -/

namespace Sys2Proof.Safety

open Sys2Proof.Machine

/-! ### The invariants of R45, by item -/

/-- Item 1: every table entry lies in `[MIN_PULSE, MAX_PULSE_EXCL)`. -/
abbrev TableInRange (c : Config) (r : Regs) : Prop :=
  ∀ i : Fin 16, c.minPulse ≤ (readPw r i).toNat ∧ (readPw r i).toNat < c.maxPulseExcl

/-- Item 2: `PERIOD = PULSE + 1` and `PULSE` is in range. -/
abbrev SlotRegsAgree (c : Config) (r : Regs) : Prop :=
  r.period.toNat = r.pulse.toNat + 1 ∧ c.minPulse ≤ r.pulse.toNat ∧ r.pulse.toNat < c.maxPulseExcl

/-- Item 3: `SCNT < PERIOD`. -/
abbrev SlotCounterInSlot (r : Regs) : Prop := r.scnt.toNat < r.period.toNat

/-- Item 4: a step in progress holds the step channel disabled. -/
abbrev InStepHoldsChannel (r : Regs) : Prop := r.inStep = true → r.stepEn = false

/-- Item 5: `STEP_EN` and `DEFERRED` never hold together. -/
abbrev EnablesExclusive (r : Regs) : Prop := ¬(r.stepEn = true ∧ r.deferred = true)

/-- Item 6: with no move open nothing is enabled or requested. -/
abbrev NoMoveNoEnable (r : Regs) : Prop := r.rem = 0#32 → r.stepEn = false ∧ r.deferred = false

/-- Item 7: an armed delay keeps the slack the re-arm needs. -/
abbrev ArmedDelayHasSlack (c : Config) (r : Regs) : Prop :=
  r.stepEn = true ∨ r.deferred = true →
    min c.minDelay c.early ≤ r.rem.toNat ∧ (2 ^ 16 ≤ r.rem.toNat → 2 ^ 16 + c.early ≤ r.rem.toNat)

/-- Item 8: the divider counters are below their thresholds. -/
abbrev DividerCountersLow (c : Config) (r : Regs) : Prop :=
  r.cntMs.toNat < c.divT1 ∧ r.cnt10ms.toNat < c.divT2 ∧ r.cnt250ms.toNat < c.divT3

/-- R45: what holds between transitions in every reachable state. -/
abbrev Inv (c : Config) (r : Regs) : Prop :=
  TableInRange c r ∧ SlotRegsAgree c r ∧ SlotCounterInSlot r ∧ InStepHoldsChannel r ∧ EnablesExclusive r ∧
    NoMoveNoEnable r ∧ ArmedDelayHasSlack c r ∧ DividerCountersLow c r

/-- A machine state is good when its state record meets R45. -/
abbrev Good (s : State) : Prop := Inv Config.hw s.regs

/-! ### The words of whole-run guarantees -/

/-- The input is an ARM with a non-zero delay: the only input that can request a step (R140, R141). -/
def requestsStep : Input → Bool
  | .command w =>
    match decode w with
    | .ok (.arm d) => d != 0#32
    | _ => false
  | _ => false

/-- The input is an ARM, a STOP or a reset: what R138 supposes not to come until the real step. -/
def disturbsStep : Input → Bool
  | .tick => false
  | .command w =>
    match decode w with
    | .ok (.arm _) => true
    | .ok .stop => true
    | _ => false
  | .reset => true

/-- How many of the inputs are TICKs: the passage of time (R250). -/
def tickCount (inputs : List Input) : Nat := inputs.countP fun input => input == Input.tick

/-- The ticks of a whole frame with the table as it stands: `sum over i of (PW[i] + 1)` (R115). -/
def frameTicks (r : Regs) : Nat := (r.pw.toList.map fun v => v.toNat + 1).sum

/-- The ticks after an ARM's baseline at which `TCNT` first reaches the value it programmed: `m` of R139, the branches
of R131. -/
def firstMatchTicks (c : Config) (delay : Nat) : Nat :=
  if delay < 2 ^ 16 then delay else if delay < 2 ^ 16 + c.early then 2 ^ 16 - c.early else 2 ^ 16

/-- The channels of the slot boundaries among some events, in order (R43). -/
def boundariesIn (events : List Event) : List (BitVec 4) :=
  events.filterMap fun e => match e with
    | .muxBoundary i => some i
    | _ => none

/-- The events of the first `n` transitions from a state, in order (R43). -/
def eventsOfRun : Nat → State → List Event
  | 0, _ => []
  | n + 1, s =>
    match step s with
    | .next t => t.events ++ eventsOfRun n t
    | .fault _ => []
    | .refused _ => []

/-! ### Safe and fair runs -/

/-- No step of the run from `s` stops the machine (R202): `n` steps answer a next state. -/
abbrev RunsOn (n : Nat) (s : State) : Prop := ∃ t, Host.Core.run Sys2Proof.core n s = .next t

/-- The state record before the `n`-th transition of an infinite run from reset in which the agents make the inputs
`choice 0, choice 1, …` (R68, R252). -/
def runOf (c : Config) (choice : Nat → Input) : Nat → State
  | 0 => State.resetAt c
  | n + 1 => stepAt c { runOf c choice n with inputs := [choice n] }

/-- R246, first assumption: the tick agent takes TICK infinitely often. -/
def TicksForever (choice : Nat → Input) : Prop := ∀ n, ∃ m, n ≤ m ∧ choice m = .tick

/-- R246, second assumption: after every STEP_FIRE the step collaborator eventually sends STEPDONE. -/
def StepsAreDone (c : Config) (choice : Nat → Input) : Prop :=
  ∀ n, Event.stepFire ∈ (runOf c choice (n + 1)).events →
    ∃ m, n < m ∧ choice m = .command (encode .stepdone)

/-- A fair run (R246). -/
def FairRun (c : Config) (choice : Nat → Input) : Prop := TicksForever choice ∧ StepsAreDone c choice

end Sys2Proof.Safety
end

