-- ==== Sys2Proof/Certificates/Slice0/Obligations.lean ====
section
/-! DEFINITION. The statements for the provers. A statement cites the rule of spec/ it formalises; parameter values are
those of spec/00_scope.md R7, the OPEN ones stay open. A statement about a run places the run's transitions, TICKs too,
in the inputs, so that it does not rest on what a step does when none is placed (notes/assumptions/1.md). -/

open Sys2Proof Sys2Proof.Machine Sys2Proof.Safety

/-! ### Encoding -/

/-- R81, R84, R87: the word of every command decodes to that command, with every operand at every value. -/
def Obligations.DecodeOfEncode : Prop :=
  ∀ i : Instr, decode (encode i) = .ok i

/-- R84, R87: a word that decodes is the word of its command: every bit of it is read or checked. -/
def Obligations.EncodeOfDecode : Prop :=
  ∀ (w : CommandWord) (i : Instr), decode w = .ok i → encode i = w

/-- R87, R88: exactly the words of the match and mask list decode. -/
def Obligations.DecodeAcceptsExactlyTheTable : Prop :=
  ∀ w : CommandWord, (∃ i, decode w = .ok i) ↔ ∃ row ∈ opcodeRows, w &&& row.mask = row.pattern

/-- R87: no word is in two rows of the match and mask list. -/
def Obligations.OpcodeRowsDisjoint : Prop :=
  opcodeRows.Pairwise fun a b => ∀ w : CommandWord, ¬(a.accepts w = true ∧ b.accepts w = true)

/-- R93: the encoding examples. -/
def Obligations.SpecExampleWordsDecode : Prop :=
  decode 0x0103000007D0#48 = .ok (.setpw 3#8 2000#32) ∧
  decode 0x010F00000258#48 = .ok (.setpw 15#8 600#32) ∧
  decode 0x020300000000#48 = .ok (.getpw 3#8) ∧
  decode 0x0300000003E8#48 = .ok (.arm 1000#32) ∧
  decode 0x0300000249F0#48 = .ok (.arm 150000#32) ∧
  decode 0x030000000000#48 = .ok (.arm 0#32) ∧
  decode 0x040000000000#48 = .ok .stop ∧
  decode 0x050200000000#48 = .ok (.tstclr 2#8) ∧
  decode 0x061400000000#48 = .ok (.rdreg 0x14#8) ∧
  decode 0x061600000000#48 = .ok (.rdreg 0x16#8) ∧
  decode 0x070000000000#48 = .ok .stepdone

/-- R62, R63: a word's six bytes, least significant first, deliver that word and then what the bytes after them do;
fewer than six bytes deliver no command. -/
def Obligations.BusBytesDeliverWholeWords : Prop :=
  (∀ (w : CommandWord) (later : List Byte),
    wordsOfBytes (commandBytes w ++ later) = (w :: (wordsOfBytes later).1, (wordsOfBytes later).2)) ∧
  (∀ bytes : List Byte, bytes.length < 6 → wordsOfBytes bytes = ([], bytes))

/-- R91, R92, R81: form by form, a line assembles exactly when each of its numbers fits the field the form puts it in;
its word has the row's `OP`, the numbers in `SEL` and `IMM` as R91's form places them and 0 in the rest, and decodes to
the form's command. CANCEL is `ARM 0`. WAIT has no word: it is that many TICKs. -/
def Obligations.AssembledLinesDecode : Prop :=
  (∀ (ch v : Nat) (w : CommandWord), assemble (.setpw ch v) = some w ↔
    ch < 256 ∧ v < 4294967296 ∧ w.toNat = 0x010000000000 + ch * 0x100000000 + v ∧
      decode w = .ok (.setpw (BitVec.ofNat 8 ch) (BitVec.ofNat 32 v))) ∧
  (∀ (ch : Nat) (w : CommandWord), assemble (.getpw ch) = some w ↔
    ch < 256 ∧ w.toNat = 0x020000000000 + ch * 0x100000000 ∧ decode w = .ok (.getpw (BitVec.ofNat 8 ch))) ∧
  (∀ (d : Nat) (w : CommandWord), assemble (.arm d) = some w ↔
    d < 4294967296 ∧ w.toNat = 0x030000000000 + d ∧ decode w = .ok (.arm (BitVec.ofNat 32 d))) ∧
  (∀ w : CommandWord, assemble .stop = some w ↔ w = 0x040000000000#48 ∧ decode w = .ok .stop) ∧
  (∀ (f : Nat) (w : CommandWord), assemble (.tstclr f) = some w ↔
    f < 256 ∧ w.toNat = 0x050000000000 + f * 0x100000000 ∧ decode w = .ok (.tstclr (BitVec.ofNat 8 f))) ∧
  (∀ (r : Nat) (w : CommandWord), assemble (.rdreg r) = some w ↔
    r < 256 ∧ w.toNat = 0x060000000000 + r * 0x100000000 ∧ decode w = .ok (.rdreg (BitVec.ofNat 8 r))) ∧
  (∀ w : CommandWord, assemble .stepdone = some w ↔ w = 0x070000000000#48 ∧ decode w = .ok .stepdone) ∧
  (∀ w : CommandWord, assemble .cancel = some w ↔ w = 0x030000000000#48 ∧ decode w = .ok (.arm 0#32)) ∧
  (∀ n : Nat, assemble (.wait n) = none ∧ asmInputs (.wait n) = some (List.replicate n .tick))

/-! ### Configuration and reset -/

/-- R7, R9: this hardware's parameters have the table's values, and the configuration meets every constraint whatever
the OPEN parameters are. -/
def Obligations.HardwareConfigurationIsValid : Prop :=
  Config.hw.Valid ∧ Config.hw.minPulse = 600 ∧ Config.hw.maxPulseExcl = 2400 ∧ Config.hw.pwReset = 1500 ∧
    Config.hw.minDelay = 17 ∧ Config.hw.early = 10000 ∧ Config.hw.divT1 = 10 ∧ Config.hw.divT2 = 25 ∧
    Config.hw.divT3 = 4

/-- R9: a configuration is refused exactly when it breaks a constraint, and a valid one starts in a state that meets
R45. -/
def Obligations.PowerOnRefusesBadConfigurations : Prop :=
  ∀ c : Config,
    (¬c.Valid → powerOn c = .refused .badConfiguration) ∧
    (c.Valid → ∃ s, powerOn c = .next s ∧ Inv c s.regs)

/-- R20, R230: the state record right after reset, element by element. -/
def Obligations.ResetRecordValues : Prop :=
  (∀ i : Fin 16, State.reset.regs.pw[i] = 1500#16) ∧
  State.reset.regs.idx = 0#4 ∧ State.reset.regs.period = 1501#16 ∧ State.reset.regs.pulse = 1500#16 ∧
  State.reset.regs.scnt = 0#16 ∧ State.reset.regs.tcnt = 0#16 ∧ State.reset.regs.ocrS = 0#16 ∧
  State.reset.regs.rem = 0#32 ∧ State.reset.regs.stepEn = false ∧ State.reset.regs.deferred = false ∧
  State.reset.regs.inStep = false ∧ State.reset.regs.ocrD.toNat = Config.hw.divPeriod ∧
  State.reset.regs.divEn = true ∧ State.reset.regs.cntMs = 0#8 ∧ State.reset.regs.cnt10ms = 0#8 ∧
  State.reset.regs.cnt250ms = 0#8 ∧ State.reset.regs.f10ms = false ∧ State.reset.regs.f250ms = false ∧
  State.reset.regs.f1s = false

/-- R230, R233: RESET, in any state, leaves every element at its reset value and emits no event; a STEPDONE that comes
after it returns ERR_STATE. -/
def Obligations.ResetRestoresEveryElement : Prop :=
  ∀ (s : State) (rest : List Input), s.inputs = .reset :: rest →
    ∃ t, step s = .next t ∧ t = { State.reset with inputs := rest } ∧
      stepOut t.regs = false ∧
      exec .stepdone t = .next { t with response := some 0x0300000000#40, events := [] }

/-! ### The step -/

/-- R84, R68, R69: when the next input is a word that decodes to a command, the step is that command's meaning, run with
the word taken from the inputs. -/
def Obligations.StepRunsTheDecodedCommand : Prop :=
  ∀ (s : State) (w : CommandWord) (rest : List Input) (i : Instr),
    s.inputs = .command w :: rest → decode w = .ok i → step s = exec i { s with inputs := rest }

/-- R88: a word no row of R87 accepts answers ERR_ILLEGAL with data 0 and changes nothing; `OP` 0x00 and 0x08-0xFF are
in no row, nor is a word with a must-be-zero field that is not 0. -/
def Obligations.IllegalWordAnswersErrIllegal : Prop :=
  ∀ (s : State) (w : CommandWord) (rest : List Input), s.inputs = .command w :: rest →
    (wordWellFormed w = false →
      step s = .next { s with inputs := rest, response := some 0x0100000000#40, events := [] }) ∧
    ((opField w).toNat = 0 ∨ 8 ≤ (opField w).toNat → wordWellFormed w = false) ∧
    (selField w ≠ 0#8 → opField w = 3#8 ∨ opField w = 4#8 ∨ opField w = 7#8 → wordWellFormed w = false) ∧
    (immField w ≠ 0#32 →
      opField w = 2#8 ∨ opField w = 4#8 ∨ opField w = 5#8 ∨ opField w = 6#8 ∨ opField w = 7#8 →
      wordWellFormed w = false)

/-- R68, R69 and the model's choice of notes/assumptions/1.md: a step takes the first of the inputs to come, and is a
TICK when there is none. -/
def Obligations.StepTakesTheNextInput : Prop :=
  (∀ s t : State, step s = .next t → t.inputs = s.inputs.tail) ∧
  (∀ s t : State, s.inputs = [] → step { s with inputs := [.tick] } = .next t → step s = .next t)

/-- R202, R216: every transition ends in a next state, so any number of them can run from any state. -/
def Obligations.EveryRunGoesOn : Prop :=
  ∀ (n : Nat) (s : State), RunsOn n s

/-- D29, R7: the step of this hardware is the configured step at this hardware's configuration. -/
def Obligations.StepIsTheConfiguredStep : Prop :=
  ∀ s : State, step s = .next (stepAt Config.hw s)

/-! ### The commands, each with its whole frame -/

/-- R110: SETPW refuses a channel outside 0-15 or a value outside `[600, 2400)`, checked on 32 bits, and otherwise
writes the one table entry and nothing else. -/
def Obligations.SetpwWritesOneEntryOrRefuses : Prop :=
  ∀ (ch : BitVec 8) (v : BitVec 32) (s : State),
    (16 ≤ ch.toNat ∨ v.toNat < 600 ∨ 2400 ≤ v.toNat →
      exec (.setpw ch v) s = .next { s with response := some 0x0200000000#40, events := [] }) ∧
    (∀ h : ch.toNat < 16, 600 ≤ v.toNat → v.toNat < 2400 →
      exec (.setpw ch v) s = .next { s with
        regs := { s.regs with pw := s.regs.pw.set ch.toNat (BitVec.ofNat 16 v.toNat) h }
        response := some 0x0000000000#40
        events := [] })

/-- R111: GETPW returns the entry, zero-extended, and changes nothing; a channel outside 0-15 is refused with data 0. -/
def Obligations.GetpwReturnsTheEntry : Prop :=
  ∀ (ch : BitVec 8) (s : State),
    (16 ≤ ch.toNat →
      exec (.getpw ch) s = .next { s with response := some 0x0200000000#40, events := [] }) ∧
    (∀ h : ch.toNat < 16,
      exec (.getpw ch) s = .next { s with
        response := some (BitVec.ofNat 40 (s.regs.pw[ch.toNat]'h).toNat)
        events := [] })

/-- R110, R111 (vector X1 and X2 of the spec): GETPW after SETPW returns the value written on that channel, the old
value on every other channel, and the old value everywhere when the SETPW was refused. -/
def Obligations.GetpwAfterSetpw : Prop :=
  ∀ (ch ch' : BitVec 8) (v : BitVec 32) (s : State), ch'.toNat < 16 →
    ∃ t u u0, exec (.setpw ch v) s = .next t ∧ exec (.getpw ch') t = .next u ∧ exec (.getpw ch') s = .next u0 ∧
      u.response =
        if ch' = ch ∧ 600 ≤ v.toNat ∧ v.toNat < 2400 then some (BitVec.ofNat 40 v.toNat) else u0.response

/-- R130, R131: ARM. `d'` is the clamped delay and `base` the baseline; the three branches program the first match. -/
def Obligations.ArmProgramsTheFirstMatch : Prop :=
  ∀ (d : BitVec 32) (s : State) (d' : Nat) (base : Ticks),
    d' = max d.toNat 17 → base = (if s.regs.rem = 0#32 then s.regs.tcnt else s.regs.ocrS) →
    (d = 0#32 →
      exec (.arm d) s = .next { s with
        regs := { s.regs with divEn := true, stepEn := false, rem := 0#32, deferred := false }
        response := some 0x0000000000#40
        events := [] }) ∧
    (d ≠ 0#32 → d' < 65536 →
      exec (.arm d) s = .next { s with
        regs := { s.regs with
          divEn := true, stepEn := false, deferred := true
          ocrS := BitVec.ofNat 16 (base.toNat + d'), rem := BitVec.ofNat 32 d' }
        response := some 0x0000000000#40
        events := [] }) ∧
    (65536 ≤ d' → d' < 75536 →
      exec (.arm d) s = .next { s with
        regs := { s.regs with
          divEn := true, stepEn := false, deferred := true
          ocrS := BitVec.ofNat 16 (base.toNat + 65536 - 10000), rem := BitVec.ofNat 32 (d' + 10000) }
        response := some 0x0000000000#40
        events := [] }) ∧
    (75536 ≤ d' →
      exec (.arm d) s = .next { s with
        regs := { s.regs with
          divEn := true, stepEn := false, deferred := true, ocrS := base, rem := BitVec.ofNat 32 d' }
        response := some 0x0000000000#40
        events := [] })

/-- R132: STOP clears the enable and the request, and the divider's enable exactly under the OPEN parameter. -/
def Obligations.StopMasksTheStepChannel : Prop :=
  ∀ s : State,
    exec .stop s = .next { s with
      regs := { s.regs with
        stepEn := false, deferred := false, divEn := s.regs.divEn && !Config.hw.stopDisablesDivider }
      response := some 0x0000000000#40
      events := [] }

/-- R137: STEPDONE lowers `IN_STEP`, enables the channel only if an ARM came during the callback, and is an error when
no step is in progress. -/
def Obligations.StepdoneEndsTheCallback : Prop :=
  ∀ s : State,
    (s.regs.inStep = false →
      exec .stepdone s = .next { s with response := some 0x0300000000#40, events := [] }) ∧
    (s.regs.inStep = true → s.regs.deferred = true →
      exec .stepdone s = .next { s with
        regs := { s.regs with inStep := false, stepEn := true, deferred := false }
        response := some 0x0000000000#40
        events := [] }) ∧
    (s.regs.inStep = true → s.regs.deferred = false →
      exec .stepdone s = .next { s with
        regs := { s.regs with inStep := false }
        response := some 0x0000000000#40
        events := [] })

/-- R165: TSTCLR returns one flag and clears it, and nothing else; a flag number above 2 is refused. -/
def Obligations.TstclrReadsAndClearsOneFlag : Prop :=
  ∀ (f : BitVec 8) (s : State),
    (2 < f.toNat → exec (.tstclr f) s = .next { s with response := some 0x0200000000#40, events := [] }) ∧
    (f = 0#8 → exec (.tstclr f) s = .next { s with
      regs := { s.regs with f10ms := false }
      response := some (BitVec.ofNat 40 s.regs.f10ms.toNat)
      events := [] }) ∧
    (f = 1#8 → exec (.tstclr f) s = .next { s with
      regs := { s.regs with f250ms := false }
      response := some (BitVec.ofNat 40 s.regs.f250ms.toNat)
      events := [] }) ∧
    (f = 2#8 → exec (.tstclr f) s = .next { s with
      regs := { s.regs with f1s := false }
      response := some (BitVec.ofNat 40 s.regs.f1s.toNat)
      events := [] })

/-- R165, R166: a TSTCLR straight after a TSTCLR of the same flag returns 0, however often the flag had been set. -/
def Obligations.TstclrTwiceLeavesNoBacklog : Prop :=
  ∀ (f : BitVec 8) (s : State), f.toNat ≤ 2 →
    ∃ t u, exec (.tstclr f) s = .next t ∧ exec (.tstclr f) t = .next u ∧ u.regs = t.regs ∧
      u.response = some 0x0000000000#40

/-- R180, R44: RDREG of each register number returns that register, laid out as R44 says with the unlisted bits 0, and
changes nothing; a reserved number is refused. -/
def Obligations.RdregReturnsTheRegister : Prop :=
  ∀ (r : BitVec 8) (s : State),
    (0x1E < r.toNat → exec (.rdreg r) s = .next { s with response := some 0x0200000000#40, events := [] }) ∧
    (r.toNat ≤ 0x1E → ∃ data : Nat,
      exec (.rdreg r) s = .next { s with response := some (BitVec.ofNat 40 data), events := [] } ∧
      (∀ h : r.toNat < 16, data = (s.regs.pw[r.toNat]'h).toNat) ∧
      (r = 0x10#8 → data = s.regs.idx.toNat) ∧
      (r = 0x11#8 → data = s.regs.period.toNat) ∧
      (r = 0x12#8 → data = s.regs.pulse.toNat) ∧
      (r = 0x13#8 → data = s.regs.scnt.toNat) ∧
      (r = 0x14#8 → data = s.regs.tcnt.toNat) ∧
      (r = 0x15#8 → data = s.regs.ocrS.toNat) ∧
      (r = 0x16#8 → data = s.regs.rem.toNat) ∧
      (r = 0x17#8 → data = s.regs.stepEn.toNat + 2 * s.regs.deferred.toNat + 4 * s.regs.inStep.toNat) ∧
      (r = 0x18#8 → data = s.regs.ocrD.toNat) ∧
      (r = 0x19#8 → data = s.regs.divEn.toNat) ∧
      (r = 0x1A#8 → data = s.regs.cntMs.toNat) ∧
      (r = 0x1B#8 → data = s.regs.cnt10ms.toNat) ∧
      (r = 0x1C#8 → data = s.regs.cnt250ms.toNat) ∧
      (r = 0x1D#8 → data = s.regs.f10ms.toNat + 2 * s.regs.f250ms.toNat + 4 * s.regs.f1s.toNat) ∧
      (r = 0x1E#8 → data =
        (if s.regs.scnt.toNat < s.regs.pulse.toNat then 1 else 0) + 2 * s.regs.inStep.toNat + 16 * s.regs.idx.toNat))

/-! ### The parts of a TICK -/

/-- R28, R101, R104: a TICK advances `TCNT` by one modulo 2^16, returns no response and writes no table entry. -/
def Obligations.TickAdvancesTcnt : Prop :=
  ∀ (s : State) (rest : List Input), s.inputs = .tick :: rest →
    ∃ t, step s = .next t ∧ t.regs.tcnt.toNat = (s.regs.tcnt.toNat + 1) % 65536 ∧ t.regs.pw = s.regs.pw ∧
      t.response = none ∧ t.inputs = rest

/-- R101, R102, R208: the events of a TICK are the step channel's, then the divider's, then the slot boundary's, and a
watchdog kick stands with each of the last two (R163). -/
def Obligations.TickEventsInOrder : Prop :=
  ∀ (s : State) (rest : List Input), s.inputs = .tick :: rest →
    ∃ t a b c, step s = .next t ∧ t.events = a ++ b ++ c ∧
      (a = [] ∨ a = [.stepFire] ∨ a = [.stepWrap]) ∧ (b = [] ∨ b = [.divEvent, .wdtKick]) ∧
      (c = [] ∨ c = [.muxBoundary t.regs.idx, .wdtKick])

/-- R112: a TICK that does not end the slot advances the slot counter and leaves the slot alone. -/
def Obligations.SlotTickCountsInsideTheSlot : Prop :=
  ∀ (s : State) (rest : List Input), s.inputs = .tick :: rest → s.regs.scnt + 1#16 ≠ s.regs.period →
    ∃ t, step s = .next t ∧ t.regs.scnt = s.regs.scnt + 1#16 ∧ t.regs.idx = s.regs.idx ∧
      t.regs.period = s.regs.period ∧ t.regs.pulse = s.regs.pulse ∧ boundariesIn t.events = []

/-- R112, R113: a TICK whose slot count reaches `PERIOD` starts the next channel's slot with that channel's width, the
address and the servo output changing in the same transition. -/
def Obligations.SlotBoundaryStartsTheNextSlot : Prop :=
  ∀ (s : State) (rest : List Input), s.inputs = .tick :: rest → s.regs.scnt + 1#16 = s.regs.period →
    TableInRange Config.hw s.regs →
    ∃ t earlier, step s = .next t ∧ t.regs.scnt = 0#16 ∧ t.regs.idx.toNat = (s.regs.idx.toNat + 1) % 16 ∧
      t.regs.pulse = readPw s.regs t.regs.idx.toFin ∧
      t.regs.period.toNat = (readPw s.regs t.regs.idx.toFin).toNat + 1 ∧
      addrOut t.regs = t.regs.idx ∧ servoOut t.regs = true ∧
      t.events = earlier ++ [.muxBoundary t.regs.idx, .wdtKick] ∧ boundariesIn earlier = []

/-- R136, R101: the commit turns a pending enable into an enabled channel when no callback is in progress and the same
TICK does not match. -/
def Obligations.CommitEnablesThePendingChannel : Prop :=
  ∀ (s : State) (rest : List Input), s.inputs = .tick :: rest →
    s.regs.deferred = true → s.regs.inStep = false → s.regs.tcnt + 1#16 ≠ s.regs.ocrS →
    ∃ t, step s = .next t ∧ t.regs.stepEn = true ∧ t.regs.deferred = false ∧ t.regs.inStep = false ∧
      t.regs.ocrS = s.regs.ocrS ∧ t.regs.rem = s.regs.rem ∧ .stepFire ∉ t.events ∧ .stepWrap ∉ t.events

/-- R133, R134, R136: a match with `REM < 2^16`, on a channel enabled before the TICK or by its commit, is the real
step: it fires, holds the channel, and keeps `REM` and `OCR_S`. -/
def Obligations.RealStepFiresAndHoldsTheChannel : Prop :=
  ∀ (s : State) (rest : List Input), s.inputs = .tick :: rest →
    s.regs.stepEn = true ∨ (s.regs.deferred = true ∧ s.regs.inStep = false) →
    s.regs.tcnt + 1#16 = s.regs.ocrS → s.regs.rem.toNat < 65536 →
    ∃ t later, step s = .next t ∧ t.events = .stepFire :: later ∧ .stepFire ∉ later ∧
      t.regs.inStep = true ∧ stepOut t.regs = true ∧ t.regs.stepEn = false ∧ t.regs.deferred = false ∧
      t.regs.ocrS = s.regs.ocrS ∧ t.regs.rem = s.regs.rem

/-- R133, R135: a match with `REM >= 2^16` consumes one wrap and programs the rest by the three branches; the channel
stays enabled. -/
def Obligations.IntermediateWrapReprogramsTheRest : Prop :=
  ∀ (s : State) (rest : List Input) (r : Nat), s.inputs = .tick :: rest →
    s.regs.stepEn = true ∨ (s.regs.deferred = true ∧ s.regs.inStep = false) →
    s.regs.tcnt + 1#16 = s.regs.ocrS → s.regs.rem.toNat = 65536 + r →
    ∃ t later, step s = .next t ∧ t.events = .stepWrap :: later ∧ .stepFire ∉ later ∧
      t.regs.stepEn = true ∧ t.regs.inStep = s.regs.inStep ∧
      (r < 65536 → t.regs.ocrS = BitVec.ofNat 16 (s.regs.ocrS.toNat + r) ∧ t.regs.rem.toNat = r) ∧
      (65536 ≤ r → r < 75536 →
        t.regs.ocrS = BitVec.ofNat 16 (s.regs.ocrS.toNat + 65536 - 10000) ∧ t.regs.rem.toNat = r + 10000) ∧
      (75536 ≤ r → t.regs.ocrS = s.regs.ocrS ∧ t.regs.rem.toNat = r)

/-- R103, R247, R164: a match passed while a channel is disabled leaves no trace. -/
def Obligations.DisabledMatchLeavesNoTrace : Prop :=
  ∀ (s : State) (rest : List Input), s.inputs = .tick :: rest →
    ∃ t, step s = .next t ∧
      (s.regs.stepEn = false → s.regs.deferred = false ∨ s.regs.inStep = true →
        t.regs.ocrS = s.regs.ocrS ∧ t.regs.rem = s.regs.rem ∧ t.regs.stepEn = false ∧
        t.regs.deferred = s.regs.deferred ∧ t.regs.inStep = s.regs.inStep ∧
        .stepFire ∉ t.events ∧ .stepWrap ∉ t.events) ∧
      (s.regs.divEn = false →
        t.regs.ocrD = s.regs.ocrD ∧ t.regs.divEn = false ∧ t.regs.cntMs = s.regs.cntMs ∧
        t.regs.cnt10ms = s.regs.cnt10ms ∧ t.regs.cnt250ms = s.regs.cnt250ms ∧ t.regs.f10ms = s.regs.f10ms ∧
        t.regs.f250ms = s.regs.f250ms ∧ t.regs.f1s = s.regs.f1s ∧ .divEvent ∉ t.events)

/-- R101, R103: in a TICK in which `TCNT` does not reach a channel's compare value, the channel, enabled or not, keeps
its registers and emits nothing; only the commit moves a pending request into the enable. -/
def Obligations.TickWithoutAMatchLeavesTheChannels : Prop :=
  ∀ (s : State) (rest : List Input), s.inputs = .tick :: rest →
    ∃ t, step s = .next t ∧
      (s.regs.tcnt + 1#16 ≠ s.regs.ocrS →
        t.regs.ocrS = s.regs.ocrS ∧ t.regs.rem = s.regs.rem ∧ t.regs.inStep = s.regs.inStep ∧
        t.regs.stepEn = (s.regs.stepEn || (s.regs.deferred && !s.regs.inStep)) ∧
        t.regs.deferred = (s.regs.deferred && s.regs.inStep) ∧
        .stepFire ∉ t.events ∧ .stepWrap ∉ t.events) ∧
      (s.regs.tcnt + 1#16 ≠ s.regs.ocrD →
        t.regs.ocrD = s.regs.ocrD ∧ t.regs.divEn = s.regs.divEn ∧ t.regs.cntMs = s.regs.cntMs ∧
        t.regs.cnt10ms = s.regs.cnt10ms ∧ t.regs.cnt250ms = s.regs.cnt250ms ∧ t.regs.f10ms = s.regs.f10ms ∧
        t.regs.f250ms = s.regs.f250ms ∧ t.regs.f1s = s.regs.f1s ∧ .divEvent ∉ t.events)

/-- R160, R161: a divider match re-arms additively, counts one base period through the cascade, sets the flags of the
periods that end with it and clears none. -/
def Obligations.DividerMatchCascades : Prop :=
  ∀ (s : State) (rest : List Input), s.inputs = .tick :: rest → s.regs.divEn = true →
    s.regs.tcnt + 1#16 = s.regs.ocrD → DividerCountersLow Config.hw s.regs →
    ∃ t before after, step s = .next t ∧ t.events = before ++ [.divEvent, .wdtKick] ++ after ∧
      t.regs.divEn = true ∧
      t.regs.ocrD.toNat = (s.regs.ocrD.toNat + Config.hw.divPeriod) % 65536 ∧
      t.regs.cntMs.toNat = (s.regs.cntMs.toNat + 1) % 10 ∧
      t.regs.cnt10ms.toNat = (s.regs.cnt10ms.toNat + (s.regs.cntMs.toNat + 1) / 10) % 25 ∧
      t.regs.cnt250ms.toNat =
        (s.regs.cnt250ms.toNat + (s.regs.cnt10ms.toNat + (s.regs.cntMs.toNat + 1) / 10) / 25) % 4 ∧
      t.regs.f10ms = (s.regs.f10ms || decide (s.regs.cntMs.toNat = 9)) ∧
      t.regs.f250ms = (s.regs.f250ms || decide (s.regs.cntMs.toNat = 9 ∧ s.regs.cnt10ms.toNat = 24)) ∧
      t.regs.f1s = (s.regs.f1s || decide
        (s.regs.cntMs.toNat = 9 ∧ s.regs.cnt10ms.toNat = 24 ∧ s.regs.cnt250ms.toNat = 3))

/-! ### Rules of the whole machine -/

/-- R201, R13: whatever the step, an error answers with data 0, changes no element of the record and emits nothing. -/
def Obligations.ErrorsChangeNothing : Prop :=
  ∀ (s t : State) (w : ResponseWord), step s = .next t → t.response = some w → statusField w ≠ 0x00#8 →
    t.regs = s.regs ∧ t.events = [] ∧ dataField w = 0#32

/-- R83, R86: every command ends in exactly one response, whose status is one of four, and emits no event. -/
def Obligations.EveryCommandAnswersOnce : Prop :=
  ∀ (s : State) (w : CommandWord) (rest : List Input), s.inputs = .command w :: rest →
    ∃ t answer, step s = .next t ∧ t.response = some answer ∧ t.events = [] ∧
      (statusField answer = 0x00#8 ∨ statusField answer = 0x01#8 ∨ statusField answer = 0x02#8 ∨
        statusField answer = 0x03#8)

/-- R47, R20: no command writes the slot, the counters or the compare register of the divider, and each other element is
written only by the commands R20 names for it. -/
def Obligations.CommandsWriteOnlyTheirElements : Prop :=
  ∀ (i : Instr) (s : State), ∃ t, exec i s = .next t ∧ t.inputs = s.inputs ∧
    t.regs.idx = s.regs.idx ∧ t.regs.period = s.regs.period ∧ t.regs.pulse = s.regs.pulse ∧
    t.regs.scnt = s.regs.scnt ∧ t.regs.tcnt = s.regs.tcnt ∧ t.regs.ocrD = s.regs.ocrD ∧
    t.regs.cntMs = s.regs.cntMs ∧ t.regs.cnt10ms = s.regs.cnt10ms ∧ t.regs.cnt250ms = s.regs.cnt250ms ∧
    ((∀ ch v, i ≠ .setpw ch v) → t.regs.pw = s.regs.pw) ∧
    ((∀ d, i ≠ .arm d) → t.regs.ocrS = s.regs.ocrS ∧ t.regs.rem = s.regs.rem) ∧
    ((∀ d, i ≠ .arm d) → i ≠ .stop → t.regs.divEn = s.regs.divEn) ∧
    ((∀ d, i ≠ .arm d) → i ≠ .stop → i ≠ .stepdone →
      t.regs.stepEn = s.regs.stepEn ∧ t.regs.deferred = s.regs.deferred) ∧
    (i ≠ .stepdone → t.regs.inStep = s.regs.inStep) ∧
    ((∀ f, i ≠ .tstclr f) →
      t.regs.f10ms = s.regs.f10ms ∧ t.regs.f250ms = s.regs.f250ms ∧ t.regs.f1s = s.regs.f1s)

/-- R206: `STEP_EN` is set only by COMMIT and STEPDONE, and only when `DEFERRED = 1`. -/
def Obligations.OnlyCommitAndStepdoneEnable : Prop :=
  ∀ s t : State, step s = .next t → s.regs.stepEn = false → t.regs.stepEn = true →
    s.regs.deferred = true ∧ t.regs.deferred = false ∧
      ((s.regs.inStep = false ∧ (s.inputs = [] ∨ s.inputs.head? = some .tick)) ∨
       (s.regs.inStep = true ∧ s.inputs.head? = some (.command (encode .stepdone))))

/-- R67, R182: GETPW and RDREG never change the record. -/
def Obligations.ReadsHaveNoSideEffect : Prop :=
  ∀ (i : Instr) (s : State), (∃ ch, i = .getpw ch) ∨ (∃ r, i = .rdreg r) →
    ∃ t u, exec i s = .next t ∧ exec i t = .next u ∧ t.regs = s.regs ∧ u = t

/-- R35: in a TICK a step is fired only from ARMED(single-segment), and ARMED(multi-segment) goes on armed. -/
def Obligations.TickMovesSchedulerClasses : Prop :=
  ∀ (s : State) (rest : List Input), s.inputs = .tick :: rest →
    ∃ t, step s = .next t ∧
      (schedClass s.regs = .idle → schedClass t.regs = .idle) ∧
      (schedClass s.regs = .armedSingle → schedClass t.regs = .armedSingle ∨ schedClass t.regs = .fired) ∧
      (schedClass s.regs = .armedMulti → schedClass t.regs = .armedSingle ∨ schedClass t.regs = .armedMulti) ∧
      (schedClass s.regs = .fired → schedClass t.regs = .fired)

/-! ### Invariants -/

/-- R45: the state after reset meets the invariants. -/
def Obligations.ResetMeetsTheInvariants : Prop := Good State.reset

/-- R45: every step, of whatever agent, keeps the invariants, from every state that meets them. -/
def Obligations.StepKeepsTheInvariants : Prop :=
  ∀ s t : State, Good s → step s = .next t → Good t

/-- R45, R9: every configuration that meets R9, with a `MIN_DELAY` that fits the 32-bit `REM` (notes/assumptions/6.md),
keeps its invariants in every step of a run from reset under any inputs. -/
def Obligations.EveryValidConfigurationStaysGood : Prop :=
  ∀ (c : Config) (inputs : List Input) (n : Nat), c.Valid → c.minDelay < 2 ^ 32 →
    Inv c (runAt c n { State.resetAt c with inputs := inputs }).regs

/-! ### Runs: the multiplexer -/

/-- R116: the slot boundaries of a run without reset select the channels after `IDX` in cyclic order; sixteen of them
select each channel once and end where they began. -/
def Obligations.BoundariesGoRoundRobin : Prop :=
  ∀ (n : Nat) (s : State), Input.reset ∉ s.inputs → n ≤ s.inputs.length →
    ∃ t m, Host.Core.run core n s = .next t ∧
      boundariesIn (eventsOfRun n s) = (List.range m).map (fun j => s.regs.idx + BitVec.ofNat 4 (j + 1)) ∧
      t.regs.idx = s.regs.idx + BitVec.ofNat 4 m ∧
      (m = 16 → t.regs.idx = s.regs.idx ∧ ∀ i : BitVec 4, (boundariesIn (eventsOfRun n s)).count i = 1)

/-- R114, R70: from the start of a slot, whatever commands come between the TICKs (SETPW of this channel too), the slot
keeps its channel, width and shape, and ends exactly `PERIOD` TICKs later. -/
def Obligations.SlotKeepsItsShapeUnderCommands : Prop :=
  ∀ (s : State) (xs rest : List Input), s.inputs = xs ++ rest → Input.reset ∉ xs →
    s.regs.scnt = 0#16 → s.regs.period.toNat = s.regs.pulse.toNat + 1 →
    (tickCount xs ≤ s.regs.pulse.toNat →
      ∃ t, Host.Core.run core xs.length s = .next t ∧ t.regs.scnt.toNat = tickCount xs ∧
        t.regs.period = s.regs.period ∧ t.regs.pulse = s.regs.pulse ∧ addrOut t.regs = addrOut s.regs ∧
        servoOut t.regs = decide (tickCount xs < s.regs.pulse.toNat) ∧
        boundariesIn (eventsOfRun xs.length s) = []) ∧
    (tickCount xs = s.regs.pulse.toNat → rest.head? = some .tick →
      ∃ t, Host.Core.run core (xs.length + 1) s = .next t ∧ t.regs.scnt = 0#16 ∧
        addrOut t.regs = addrOut s.regs + 1#4 ∧ t.regs.pulse = readPw t.regs (addrOut t.regs).toFin ∧
        boundariesIn t.events = [addrOut s.regs + 1#4])

/-- R115: from the start of a channel's slot, through any inputs without reset that leave the table unchanged, the
boundaries that select the channel come after one frame, two frames and so on, a frame being the sum of the sixteen
widths plus sixteen TICKs, and at no other time. -/
def Obligations.FrameLengthIsTheSumOfSlots : Prop :=
  ∀ (s : State) (xs rest : List Input), Good s → s.inputs = xs ++ rest → Input.reset ∉ xs →
    (∀ m t, m ≤ xs.length → Host.Core.run core m s = .next t → t.regs.pw = s.regs.pw) →
    s.regs.scnt = 0#16 → s.regs.pulse = readPw s.regs s.regs.idx.toFin →
    9616 ≤ frameTicks s.regs ∧ frameTicks s.regs ≤ 38400 ∧ RunsOn xs.length s ∧
      (boundariesIn (eventsOfRun xs.length s)).count s.regs.idx = tickCount xs / frameTicks s.regs

/-- R117, R244: from any good state each channel's table entry reaches the output within one frame of the longest
slots. -/
def Obligations.WriteReachesItsSlotWithinAFrame : Prop :=
  ∀ (s : State) (ch : BitVec 4), Good s → s.inputs = List.replicate 38400 .tick →
    ∃ n t, 0 < n ∧ n ≤ 38400 ∧ Host.Core.run core n s = .next t ∧ .muxBoundary ch ∈ t.events ∧
      t.regs.idx = ch ∧ t.regs.pulse = readPw s.regs ch.toFin

/-! ### Runs: the scheduler -/

/-- R138: an ARM of a new move, then any inputs without ARM, STOP and reset. When no callback is in progress, or a
STEPDONE ends it before the first match the ARM programmed, the step fires in the `d'`-th TICK after the ARM, once. -/
def Obligations.NewMoveFiresAtItsDelay : Prop :=
  ∀ (s : State) (d : BitVec 32) (xs rest : List Input), s.inputs = .command (encode (.arm d)) :: (xs ++ rest) →
    d ≠ 0#32 → s.regs.rem = 0#32 → (∀ x ∈ xs, disturbsStep x = false) →
    s.regs.inStep = false ∨
      (∃ ys zs, xs = ys ++ .command (encode .stepdone) :: zs ∧
        tickCount ys < firstMatchTicks Config.hw (max d.toNat 17)) →
    RunsOn (xs.length + 1) s ∧
      (eventsOfRun (xs.length + 1) s).count .stepFire = if tickCount xs < max d.toNat 17 then 0 else 1

/-- R139: an ARM sent `a` TICKs after the previous step of an open move, then any inputs without ARM, STOP and reset.
When the enable is committed in time, by the next TICK or, if the ARM came during the callback, by a STEPDONE before
the TICK of the first match, the step fires `d'` TICKs after the previous step, once. -/
def Obligations.ChainedStepKeepsTheCadence : Prop :=
  ∀ (s : State) (d : BitVec 32) (a : Nat) (xs rest : List Input),
    s.inputs = .command (encode (.arm d)) :: (xs ++ rest) → d ≠ 0#32 → s.regs.rem ≠ 0#32 →
    s.regs.tcnt = s.regs.ocrS + BitVec.ofNat 16 a → (∀ x ∈ xs, disturbsStep x = false) →
    (s.regs.inStep = false ∧ a < firstMatchTicks Config.hw (max d.toNat 17)) ∨
      (∃ ys zs, xs = ys ++ .command (encode .stepdone) :: zs ∧
        a + tickCount ys < firstMatchTicks Config.hw (max d.toNat 17)) →
    RunsOn (xs.length + 1) s ∧
      (eventsOfRun (xs.length + 1) s).count .stepFire = if a + tickCount xs < max d.toNat 17 then 0 else 1

/-- R240: as R139, but the enable is committed late: `e` TICKs after the previous step, `TCNT` has already passed the
value the ARM programmed. The step fires whole wraps of 2^16 TICKs late: as many as bring the first match past the
commit. -/
def Obligations.LateChainedStepFiresWholeWrapsLate : Prop :=
  ∀ (s : State) (d : BitVec 32) (a e late : Nat) (xs rest : List Input),
    s.inputs = .command (encode (.arm d)) :: (xs ++ rest) → d ≠ 0#32 → s.regs.rem ≠ 0#32 →
    s.regs.tcnt = s.regs.ocrS + BitVec.ofNat 16 a → (∀ x ∈ xs, disturbsStep x = false) →
    (s.regs.inStep = false ∧ e = a) ∨
      (s.regs.inStep = true ∧ ∃ ys zs, xs = ys ++ .command (encode .stepdone) :: zs ∧
        .command (encode .stepdone) ∉ ys ∧ e = a + tickCount ys) →
    firstMatchTicks Config.hw (max d.toNat 17) ≤ e →
    late = 65536 * ((e - firstMatchTicks Config.hw (max d.toNat 17)) / 65536 + 1) →
    RunsOn (xs.length + 1) s ∧
      (eventsOfRun (xs.length + 1) s).count .stepFire = if a + tickCount xs < max d.toNat 17 + late then 0 else 1

/-- R141: after STOP, in any state, no step fires until a later non-zero ARM, whatever else is sent. -/
def Obligations.StopSilencesTheStepChannel : Prop :=
  ∀ (s : State) (rest : List Input) (n : Nat), s.inputs = .command (encode .stop) :: rest →
    n ≤ rest.length → (∀ x ∈ rest.take n, requestsStep x = false) →
    ∃ t, Host.Core.run core (n + 1) s = .next t ∧ .stepFire ∉ eventsOfRun (n + 1) s

/-- R140: after ARM(0), in any state, no step fires until a later non-zero ARM; with nothing armed, no move open and the
divider enabled it changes no element. -/
def Obligations.CancelSilencesTheStepChannel : Prop :=
  ∀ (s : State) (rest : List Input) (n : Nat), s.inputs = .command (encode (.arm 0#32)) :: rest →
    (n ≤ rest.length → (∀ x ∈ rest.take n, requestsStep x = false) →
      ∃ t, Host.Core.run core (n + 1) s = .next t ∧ .stepFire ∉ eventsOfRun (n + 1) s) ∧
    (s.regs.rem = 0#32 → s.regs.stepEn = false → s.regs.deferred = false → s.regs.divEn = true →
      ∃ t, step s = .next t ∧ t.regs = s.regs)

/-- R243, R210: from a step's firing until STEPDONE or reset no further step fires and `STEP_OUT` stays high, whatever
else is sent. -/
def Obligations.NoStepDuringTheCallback : Prop :=
  ∀ (s : State) (n : Nat), s.regs.inStep = true → s.regs.stepEn = false → n ≤ s.inputs.length →
    (∀ x ∈ s.inputs.take n, x ≠ .reset ∧ x ≠ .command (encode .stepdone)) →
    ∃ t, Host.Core.run core n s = .next t ∧ .stepFire ∉ eventsOfRun n s ∧ stepOut t.regs = true ∧
      t.regs.stepEn = false

/-! ### Runs: the divider -/

/-- R162: after `n` TICKs from reset the divider has run once in every `DIV_PERIOD` TICKs and its counters and flags are
those of `n / DIV_PERIOD` base periods, for every value of the OPEN `DIV_PERIOD`. -/
def Obligations.DividerKeepsTimeFromReset : Prop :=
  ∀ n : Nat, ∃ t, Host.Core.run core n { State.reset with inputs := List.replicate n .tick } = .next t ∧
    t.regs.cntMs.toNat = n / Config.hw.divPeriod % 10 ∧
    t.regs.cnt10ms.toNat = n / Config.hw.divPeriod / 10 % 25 ∧
    t.regs.cnt250ms.toNat = n / Config.hw.divPeriod / 250 % 4 ∧
    t.regs.f10ms = decide (10 ≤ n / Config.hw.divPeriod) ∧
    t.regs.f250ms = decide (250 ≤ n / Config.hw.divPeriod) ∧
    t.regs.f1s = decide (1000 ≤ n / Config.hw.divPeriod) ∧
    (0 < n → (.divEvent ∈ t.events ↔ Config.hw.divPeriod ∣ n))

/-- R162: while `DIV_EN` is 1 and the next divider event is `k` TICKs away, a TICK emits it exactly when `k = 1` and
leaves it `k - 1` TICKs away, or `DIV_PERIOD` after an event; a command word, of whatever agent, emits none and leaves
it where it is, and `DIV_EN` stays 1 unless the command is a STOP that disables the divider. -/
def Obligations.DividerDistanceCountsDown : Prop :=
  ∀ (s : State) (rest : List Input) (k : Nat), s.regs.divEn = true → 1 ≤ k → k ≤ Config.hw.divPeriod →
    s.regs.ocrD = s.regs.tcnt + BitVec.ofNat 16 k →
    (s.inputs = .tick :: rest →
      ∃ t, step s = .next t ∧ t.regs.divEn = true ∧ (.divEvent ∈ t.events ↔ k = 1) ∧
        t.regs.ocrD = t.regs.tcnt + BitVec.ofNat 16 (if k = 1 then Config.hw.divPeriod else k - 1)) ∧
    (∀ w : CommandWord, s.inputs = .command w :: rest →
      ∃ t, step s = .next t ∧ .divEvent ∉ t.events ∧ t.regs.ocrD = t.regs.tcnt + BitVec.ofNat 16 k ∧
        (t.regs.divEn = true ↔ ¬(decode w = .ok .stop ∧ Config.hw.stopDisablesDivider = true)))

/-- R162: while `DIV_EN` stays 1, through any inputs without reset, the divider events are exactly `DIV_PERIOD` TICKs
apart: the first comes in TICK `k`, and none drifts. -/
def Obligations.DividerRunsOncePerPeriod : Prop :=
  ∀ (s : State) (xs rest : List Input) (k : Nat), s.inputs = xs ++ rest → Input.reset ∉ xs →
    (∀ m t, m ≤ xs.length → Host.Core.run core m s = .next t → t.regs.divEn = true) →
    1 ≤ k → k ≤ Config.hw.divPeriod → s.regs.ocrD = s.regs.tcnt + BitVec.ofNat 16 k →
    RunsOn xs.length s ∧
      (eventsOfRun xs.length s).count .divEvent = (tickCount xs + Config.hw.divPeriod - k) / Config.hw.divPeriod

/-! ### Fair runs -/

/-- R246, R115: in a fair run from reset without further resets slots keep ending, whatever commands the agents send. -/
def Obligations.FairRunsKeepReachingBoundaries : Prop :=
  ∀ choice : Nat → Input, FairRun Config.hw choice → (∀ n, choice n ≠ .reset) →
    ∀ n, ∃ m i, n ≤ m ∧ .muxBoundary i ∈ (runOf Config.hw choice (m + 1)).events
end

