-- ==== Sys2Proof/Laws/State.lean ====
section
/-! SUPPORT. One lemma per field per update of the state record and of the machine's state, so that no later proof
unfolds an update. -/

namespace Sys2Proof.Machine

/-! ### `countTick` -/

@[simp] theorem countTick_pw (r : Regs) : (countTick r).pw = r.pw := rfl
@[simp] theorem countTick_idx (r : Regs) : (countTick r).idx = r.idx := rfl
@[simp] theorem countTick_period (r : Regs) : (countTick r).period = r.period := rfl
@[simp] theorem countTick_pulse (r : Regs) : (countTick r).pulse = r.pulse := rfl
@[simp] theorem countTick_scnt (r : Regs) : (countTick r).scnt = r.scnt := rfl
@[simp] theorem countTick_tcnt (r : Regs) : (countTick r).tcnt = r.tcnt + 1#16 := rfl
@[simp] theorem countTick_ocrS (r : Regs) : (countTick r).ocrS = r.ocrS := rfl
@[simp] theorem countTick_rem (r : Regs) : (countTick r).rem = r.rem := rfl
@[simp] theorem countTick_stepEn (r : Regs) : (countTick r).stepEn = r.stepEn := rfl
@[simp] theorem countTick_deferred (r : Regs) : (countTick r).deferred = r.deferred := rfl
@[simp] theorem countTick_inStep (r : Regs) : (countTick r).inStep = r.inStep := rfl
@[simp] theorem countTick_ocrD (r : Regs) : (countTick r).ocrD = r.ocrD := rfl
@[simp] theorem countTick_divEn (r : Regs) : (countTick r).divEn = r.divEn := rfl
@[simp] theorem countTick_cntMs (r : Regs) : (countTick r).cntMs = r.cntMs := rfl
@[simp] theorem countTick_cnt10ms (r : Regs) : (countTick r).cnt10ms = r.cnt10ms := rfl
@[simp] theorem countTick_cnt250ms (r : Regs) : (countTick r).cnt250ms = r.cnt250ms := rfl
@[simp] theorem countTick_f10ms (r : Regs) : (countTick r).f10ms = r.f10ms := rfl
@[simp] theorem countTick_f250ms (r : Regs) : (countTick r).f250ms = r.f250ms := rfl
@[simp] theorem countTick_f1s (r : Regs) : (countTick r).f1s = r.f1s := rfl

/-! ### `commit` -/

@[simp] theorem commit_pw (r : Regs) : (commit r).pw = r.pw := rfl
@[simp] theorem commit_idx (r : Regs) : (commit r).idx = r.idx := rfl
@[simp] theorem commit_period (r : Regs) : (commit r).period = r.period := rfl
@[simp] theorem commit_pulse (r : Regs) : (commit r).pulse = r.pulse := rfl
@[simp] theorem commit_scnt (r : Regs) : (commit r).scnt = r.scnt := rfl
@[simp] theorem commit_tcnt (r : Regs) : (commit r).tcnt = r.tcnt := rfl
@[simp] theorem commit_ocrS (r : Regs) : (commit r).ocrS = r.ocrS := rfl
@[simp] theorem commit_rem (r : Regs) : (commit r).rem = r.rem := rfl
@[simp] theorem commit_stepEn (r : Regs) : (commit r).stepEn = true := rfl
@[simp] theorem commit_deferred (r : Regs) : (commit r).deferred = false := rfl
@[simp] theorem commit_inStep (r : Regs) : (commit r).inStep = r.inStep := rfl
@[simp] theorem commit_ocrD (r : Regs) : (commit r).ocrD = r.ocrD := rfl
@[simp] theorem commit_divEn (r : Regs) : (commit r).divEn = r.divEn := rfl
@[simp] theorem commit_cntMs (r : Regs) : (commit r).cntMs = r.cntMs := rfl
@[simp] theorem commit_cnt10ms (r : Regs) : (commit r).cnt10ms = r.cnt10ms := rfl
@[simp] theorem commit_cnt250ms (r : Regs) : (commit r).cnt250ms = r.cnt250ms := rfl
@[simp] theorem commit_f10ms (r : Regs) : (commit r).f10ms = r.f10ms := rfl
@[simp] theorem commit_f250ms (r : Regs) : (commit r).f250ms = r.f250ms := rfl
@[simp] theorem commit_f1s (r : Regs) : (commit r).f1s = r.f1s := rfl

/-! ### `realStep` -/

@[simp] theorem realStep_pw (r : Regs) : ((realStep r).1).pw = r.pw := rfl
@[simp] theorem realStep_idx (r : Regs) : ((realStep r).1).idx = r.idx := rfl
@[simp] theorem realStep_period (r : Regs) : ((realStep r).1).period = r.period := rfl
@[simp] theorem realStep_pulse (r : Regs) : ((realStep r).1).pulse = r.pulse := rfl
@[simp] theorem realStep_scnt (r : Regs) : ((realStep r).1).scnt = r.scnt := rfl
@[simp] theorem realStep_tcnt (r : Regs) : ((realStep r).1).tcnt = r.tcnt := rfl
@[simp] theorem realStep_ocrS (r : Regs) : ((realStep r).1).ocrS = r.ocrS := rfl
@[simp] theorem realStep_rem (r : Regs) : ((realStep r).1).rem = r.rem := rfl
@[simp] theorem realStep_stepEn (r : Regs) : ((realStep r).1).stepEn = false := rfl
@[simp] theorem realStep_deferred (r : Regs) : ((realStep r).1).deferred = false := rfl
@[simp] theorem realStep_inStep (r : Regs) : ((realStep r).1).inStep = true := rfl
@[simp] theorem realStep_ocrD (r : Regs) : ((realStep r).1).ocrD = r.ocrD := rfl
@[simp] theorem realStep_divEn (r : Regs) : ((realStep r).1).divEn = r.divEn := rfl
@[simp] theorem realStep_cntMs (r : Regs) : ((realStep r).1).cntMs = r.cntMs := rfl
@[simp] theorem realStep_cnt10ms (r : Regs) : ((realStep r).1).cnt10ms = r.cnt10ms := rfl
@[simp] theorem realStep_cnt250ms (r : Regs) : ((realStep r).1).cnt250ms = r.cnt250ms := rfl
@[simp] theorem realStep_f10ms (r : Regs) : ((realStep r).1).f10ms = r.f10ms := rfl
@[simp] theorem realStep_f250ms (r : Regs) : ((realStep r).1).f250ms = r.f250ms := rfl
@[simp] theorem realStep_f1s (r : Regs) : ((realStep r).1).f1s = r.f1s := rfl
@[simp] theorem realStep_events (r : Regs) : (realStep r).2 = [.stepFire] := rfl

/-! ### `writePw` -/

@[simp] theorem writePw_pw (r : Regs) (i : Fin 16) (v : Ticks) : (writePw r i v).pw = r.pw.set i v := rfl
@[simp] theorem writePw_idx (r : Regs) (i : Fin 16) (v : Ticks) : (writePw r i v).idx = r.idx := rfl
@[simp] theorem writePw_period (r : Regs) (i : Fin 16) (v : Ticks) : (writePw r i v).period = r.period := rfl
@[simp] theorem writePw_pulse (r : Regs) (i : Fin 16) (v : Ticks) : (writePw r i v).pulse = r.pulse := rfl
@[simp] theorem writePw_scnt (r : Regs) (i : Fin 16) (v : Ticks) : (writePw r i v).scnt = r.scnt := rfl
@[simp] theorem writePw_tcnt (r : Regs) (i : Fin 16) (v : Ticks) : (writePw r i v).tcnt = r.tcnt := rfl
@[simp] theorem writePw_ocrS (r : Regs) (i : Fin 16) (v : Ticks) : (writePw r i v).ocrS = r.ocrS := rfl
@[simp] theorem writePw_rem (r : Regs) (i : Fin 16) (v : Ticks) : (writePw r i v).rem = r.rem := rfl
@[simp] theorem writePw_stepEn (r : Regs) (i : Fin 16) (v : Ticks) : (writePw r i v).stepEn = r.stepEn := rfl
@[simp] theorem writePw_deferred (r : Regs) (i : Fin 16) (v : Ticks) : (writePw r i v).deferred = r.deferred := rfl
@[simp] theorem writePw_inStep (r : Regs) (i : Fin 16) (v : Ticks) : (writePw r i v).inStep = r.inStep := rfl
@[simp] theorem writePw_ocrD (r : Regs) (i : Fin 16) (v : Ticks) : (writePw r i v).ocrD = r.ocrD := rfl
@[simp] theorem writePw_divEn (r : Regs) (i : Fin 16) (v : Ticks) : (writePw r i v).divEn = r.divEn := rfl
@[simp] theorem writePw_cntMs (r : Regs) (i : Fin 16) (v : Ticks) : (writePw r i v).cntMs = r.cntMs := rfl
@[simp] theorem writePw_cnt10ms (r : Regs) (i : Fin 16) (v : Ticks) : (writePw r i v).cnt10ms = r.cnt10ms := rfl
@[simp] theorem writePw_cnt250ms (r : Regs) (i : Fin 16) (v : Ticks) : (writePw r i v).cnt250ms = r.cnt250ms := rfl
@[simp] theorem writePw_f10ms (r : Regs) (i : Fin 16) (v : Ticks) : (writePw r i v).f10ms = r.f10ms := rfl
@[simp] theorem writePw_f250ms (r : Regs) (i : Fin 16) (v : Ticks) : (writePw r i v).f250ms = r.f250ms := rfl
@[simp] theorem writePw_f1s (r : Regs) (i : Fin 16) (v : Ticks) : (writePw r i v).f1s = r.f1s := rfl

/-! ### `slotBoundary` -/

@[simp] theorem slotBoundary_pw (r : Regs) : ((slotBoundary r).1).pw = r.pw := rfl
@[simp] theorem slotBoundary_idx (r : Regs) : ((slotBoundary r).1).idx = r.idx + 1#4 := rfl
@[simp] theorem slotBoundary_period (r : Regs) : ((slotBoundary r).1).period = readPw r (r.idx + 1#4).toFin + 1#16 := rfl
@[simp] theorem slotBoundary_pulse (r : Regs) : ((slotBoundary r).1).pulse = readPw r (r.idx + 1#4).toFin := rfl
@[simp] theorem slotBoundary_scnt (r : Regs) : ((slotBoundary r).1).scnt = 0#16 := rfl
@[simp] theorem slotBoundary_tcnt (r : Regs) : ((slotBoundary r).1).tcnt = r.tcnt := rfl
@[simp] theorem slotBoundary_ocrS (r : Regs) : ((slotBoundary r).1).ocrS = r.ocrS := rfl
@[simp] theorem slotBoundary_rem (r : Regs) : ((slotBoundary r).1).rem = r.rem := rfl
@[simp] theorem slotBoundary_stepEn (r : Regs) : ((slotBoundary r).1).stepEn = r.stepEn := rfl
@[simp] theorem slotBoundary_deferred (r : Regs) : ((slotBoundary r).1).deferred = r.deferred := rfl
@[simp] theorem slotBoundary_inStep (r : Regs) : ((slotBoundary r).1).inStep = r.inStep := rfl
@[simp] theorem slotBoundary_ocrD (r : Regs) : ((slotBoundary r).1).ocrD = r.ocrD := rfl
@[simp] theorem slotBoundary_divEn (r : Regs) : ((slotBoundary r).1).divEn = r.divEn := rfl
@[simp] theorem slotBoundary_cntMs (r : Regs) : ((slotBoundary r).1).cntMs = r.cntMs := rfl
@[simp] theorem slotBoundary_cnt10ms (r : Regs) : ((slotBoundary r).1).cnt10ms = r.cnt10ms := rfl
@[simp] theorem slotBoundary_cnt250ms (r : Regs) : ((slotBoundary r).1).cnt250ms = r.cnt250ms := rfl
@[simp] theorem slotBoundary_f10ms (r : Regs) : ((slotBoundary r).1).f10ms = r.f10ms := rfl
@[simp] theorem slotBoundary_f250ms (r : Regs) : ((slotBoundary r).1).f250ms = r.f250ms := rfl
@[simp] theorem slotBoundary_f1s (r : Regs) : ((slotBoundary r).1).f1s = r.f1s := rfl
@[simp] theorem slotBoundary_events (r : Regs) :
    (slotBoundary r).2 = [.muxBoundary (r.idx + 1#4), .wdtKick] := rfl

/-! ### `programSegment`: every field but `OCR_S` and `REM` -/

@[simp] theorem programSegment_pw (c : Config) (b : Ticks) (n : Nat) (r : Regs) :
    (programSegment c b n r).pw = r.pw := by
  unfold programSegment; split <;> (try split) <;> rfl
@[simp] theorem programSegment_idx (c : Config) (b : Ticks) (n : Nat) (r : Regs) :
    (programSegment c b n r).idx = r.idx := by
  unfold programSegment; split <;> (try split) <;> rfl
@[simp] theorem programSegment_period (c : Config) (b : Ticks) (n : Nat) (r : Regs) :
    (programSegment c b n r).period = r.period := by
  unfold programSegment; split <;> (try split) <;> rfl
@[simp] theorem programSegment_pulse (c : Config) (b : Ticks) (n : Nat) (r : Regs) :
    (programSegment c b n r).pulse = r.pulse := by
  unfold programSegment; split <;> (try split) <;> rfl
@[simp] theorem programSegment_scnt (c : Config) (b : Ticks) (n : Nat) (r : Regs) :
    (programSegment c b n r).scnt = r.scnt := by
  unfold programSegment; split <;> (try split) <;> rfl
@[simp] theorem programSegment_tcnt (c : Config) (b : Ticks) (n : Nat) (r : Regs) :
    (programSegment c b n r).tcnt = r.tcnt := by
  unfold programSegment; split <;> (try split) <;> rfl
@[simp] theorem programSegment_stepEn (c : Config) (b : Ticks) (n : Nat) (r : Regs) :
    (programSegment c b n r).stepEn = r.stepEn := by
  unfold programSegment; split <;> (try split) <;> rfl
@[simp] theorem programSegment_deferred (c : Config) (b : Ticks) (n : Nat) (r : Regs) :
    (programSegment c b n r).deferred = r.deferred := by
  unfold programSegment; split <;> (try split) <;> rfl
@[simp] theorem programSegment_inStep (c : Config) (b : Ticks) (n : Nat) (r : Regs) :
    (programSegment c b n r).inStep = r.inStep := by
  unfold programSegment; split <;> (try split) <;> rfl
@[simp] theorem programSegment_ocrD (c : Config) (b : Ticks) (n : Nat) (r : Regs) :
    (programSegment c b n r).ocrD = r.ocrD := by
  unfold programSegment; split <;> (try split) <;> rfl
@[simp] theorem programSegment_divEn (c : Config) (b : Ticks) (n : Nat) (r : Regs) :
    (programSegment c b n r).divEn = r.divEn := by
  unfold programSegment; split <;> (try split) <;> rfl
@[simp] theorem programSegment_cntMs (c : Config) (b : Ticks) (n : Nat) (r : Regs) :
    (programSegment c b n r).cntMs = r.cntMs := by
  unfold programSegment; split <;> (try split) <;> rfl
@[simp] theorem programSegment_cnt10ms (c : Config) (b : Ticks) (n : Nat) (r : Regs) :
    (programSegment c b n r).cnt10ms = r.cnt10ms := by
  unfold programSegment; split <;> (try split) <;> rfl
@[simp] theorem programSegment_cnt250ms (c : Config) (b : Ticks) (n : Nat) (r : Regs) :
    (programSegment c b n r).cnt250ms = r.cnt250ms := by
  unfold programSegment; split <;> (try split) <;> rfl
@[simp] theorem programSegment_f10ms (c : Config) (b : Ticks) (n : Nat) (r : Regs) :
    (programSegment c b n r).f10ms = r.f10ms := by
  unfold programSegment; split <;> (try split) <;> rfl
@[simp] theorem programSegment_f250ms (c : Config) (b : Ticks) (n : Nat) (r : Regs) :
    (programSegment c b n r).f250ms = r.f250ms := by
  unfold programSegment; split <;> (try split) <;> rfl
@[simp] theorem programSegment_f1s (c : Config) (b : Ticks) (n : Nat) (r : Regs) :
    (programSegment c b n r).f1s = r.f1s := by
  unfold programSegment; split <;> (try split) <;> rfl

/-! ### `stepReturn`: every field but the scheduler's bits -/

@[simp] theorem stepReturn_pw (r : Regs) : (stepReturn r).pw = r.pw := by
  unfold stepReturn; dsimp only; split <;> rfl
@[simp] theorem stepReturn_idx (r : Regs) : (stepReturn r).idx = r.idx := by
  unfold stepReturn; dsimp only; split <;> rfl
@[simp] theorem stepReturn_period (r : Regs) : (stepReturn r).period = r.period := by
  unfold stepReturn; dsimp only; split <;> rfl
@[simp] theorem stepReturn_pulse (r : Regs) : (stepReturn r).pulse = r.pulse := by
  unfold stepReturn; dsimp only; split <;> rfl
@[simp] theorem stepReturn_scnt (r : Regs) : (stepReturn r).scnt = r.scnt := by
  unfold stepReturn; dsimp only; split <;> rfl
@[simp] theorem stepReturn_tcnt (r : Regs) : (stepReturn r).tcnt = r.tcnt := by
  unfold stepReturn; dsimp only; split <;> rfl
@[simp] theorem stepReturn_ocrS (r : Regs) : (stepReturn r).ocrS = r.ocrS := by
  unfold stepReturn; dsimp only; split <;> rfl
@[simp] theorem stepReturn_rem (r : Regs) : (stepReturn r).rem = r.rem := by
  unfold stepReturn; dsimp only; split <;> rfl
@[simp] theorem stepReturn_ocrD (r : Regs) : (stepReturn r).ocrD = r.ocrD := by
  unfold stepReturn; dsimp only; split <;> rfl
@[simp] theorem stepReturn_divEn (r : Regs) : (stepReturn r).divEn = r.divEn := by
  unfold stepReturn; dsimp only; split <;> rfl
@[simp] theorem stepReturn_cntMs (r : Regs) : (stepReturn r).cntMs = r.cntMs := by
  unfold stepReturn; dsimp only; split <;> rfl
@[simp] theorem stepReturn_cnt10ms (r : Regs) : (stepReturn r).cnt10ms = r.cnt10ms := by
  unfold stepReturn; dsimp only; split <;> rfl
@[simp] theorem stepReturn_cnt250ms (r : Regs) : (stepReturn r).cnt250ms = r.cnt250ms := by
  unfold stepReturn; dsimp only; split <;> rfl
@[simp] theorem stepReturn_f10ms (r : Regs) : (stepReturn r).f10ms = r.f10ms := by
  unfold stepReturn; dsimp only; split <;> rfl
@[simp] theorem stepReturn_f250ms (r : Regs) : (stepReturn r).f250ms = r.f250ms := by
  unfold stepReturn; dsimp only; split <;> rfl
@[simp] theorem stepReturn_f1s (r : Regs) : (stepReturn r).f1s = r.f1s := by
  unfold stepReturn; dsimp only; split <;> rfl

@[simp] theorem stepReturn_inStep (r : Regs) : (stepReturn r).inStep = false := by
  unfold stepReturn; dsimp only; split <;> rfl

@[simp] theorem stepReturn_deferred (r : Regs) : (stepReturn r).deferred = false := by
  unfold stepReturn; dsimp only; split <;> simp_all

@[simp] theorem stepReturn_stepEn (r : Regs) : (stepReturn r).stepEn = (r.deferred || r.stepEn) := by
  unfold stepReturn; dsimp only; split <;> simp_all

/-! ### `clearFlag`: every field but the flags -/

@[simp] theorem clearFlag_pw (g : FlagName) (r : Regs) : (clearFlag g r).pw = r.pw := by cases g <;> rfl
@[simp] theorem clearFlag_idx (g : FlagName) (r : Regs) : (clearFlag g r).idx = r.idx := by cases g <;> rfl
@[simp] theorem clearFlag_period (g : FlagName) (r : Regs) : (clearFlag g r).period = r.period := by cases g <;> rfl
@[simp] theorem clearFlag_pulse (g : FlagName) (r : Regs) : (clearFlag g r).pulse = r.pulse := by cases g <;> rfl
@[simp] theorem clearFlag_scnt (g : FlagName) (r : Regs) : (clearFlag g r).scnt = r.scnt := by cases g <;> rfl
@[simp] theorem clearFlag_tcnt (g : FlagName) (r : Regs) : (clearFlag g r).tcnt = r.tcnt := by cases g <;> rfl
@[simp] theorem clearFlag_ocrS (g : FlagName) (r : Regs) : (clearFlag g r).ocrS = r.ocrS := by cases g <;> rfl
@[simp] theorem clearFlag_rem (g : FlagName) (r : Regs) : (clearFlag g r).rem = r.rem := by cases g <;> rfl
@[simp] theorem clearFlag_stepEn (g : FlagName) (r : Regs) : (clearFlag g r).stepEn = r.stepEn := by cases g <;> rfl
@[simp] theorem clearFlag_deferred (g : FlagName) (r : Regs) : (clearFlag g r).deferred = r.deferred := by cases g <;> rfl
@[simp] theorem clearFlag_inStep (g : FlagName) (r : Regs) : (clearFlag g r).inStep = r.inStep := by cases g <;> rfl
@[simp] theorem clearFlag_ocrD (g : FlagName) (r : Regs) : (clearFlag g r).ocrD = r.ocrD := by cases g <;> rfl
@[simp] theorem clearFlag_divEn (g : FlagName) (r : Regs) : (clearFlag g r).divEn = r.divEn := by cases g <;> rfl
@[simp] theorem clearFlag_cntMs (g : FlagName) (r : Regs) : (clearFlag g r).cntMs = r.cntMs := by cases g <;> rfl
@[simp] theorem clearFlag_cnt10ms (g : FlagName) (r : Regs) : (clearFlag g r).cnt10ms = r.cnt10ms := by cases g <;> rfl
@[simp] theorem clearFlag_cnt250ms (g : FlagName) (r : Regs) : (clearFlag g r).cnt250ms = r.cnt250ms := by cases g <;> rfl

/-! ### The divider's stages: every field but the divider's own -/

@[simp] theorem divStageMs_pw (c : Config) (r : Regs) : (divStageMs c r).pw = r.pw := by
  unfold divStageMs divStage10 divStage250; dsimp only; split <;> (try split) <;> rfl
@[simp] theorem divStageMs_idx (c : Config) (r : Regs) : (divStageMs c r).idx = r.idx := by
  unfold divStageMs divStage10 divStage250; dsimp only; split <;> (try split) <;> rfl
@[simp] theorem divStageMs_period (c : Config) (r : Regs) : (divStageMs c r).period = r.period := by
  unfold divStageMs divStage10 divStage250; dsimp only; split <;> (try split) <;> rfl
@[simp] theorem divStageMs_pulse (c : Config) (r : Regs) : (divStageMs c r).pulse = r.pulse := by
  unfold divStageMs divStage10 divStage250; dsimp only; split <;> (try split) <;> rfl
@[simp] theorem divStageMs_scnt (c : Config) (r : Regs) : (divStageMs c r).scnt = r.scnt := by
  unfold divStageMs divStage10 divStage250; dsimp only; split <;> (try split) <;> rfl
@[simp] theorem divStageMs_tcnt (c : Config) (r : Regs) : (divStageMs c r).tcnt = r.tcnt := by
  unfold divStageMs divStage10 divStage250; dsimp only; split <;> (try split) <;> rfl
@[simp] theorem divStageMs_ocrS (c : Config) (r : Regs) : (divStageMs c r).ocrS = r.ocrS := by
  unfold divStageMs divStage10 divStage250; dsimp only; split <;> (try split) <;> rfl
@[simp] theorem divStageMs_rem (c : Config) (r : Regs) : (divStageMs c r).rem = r.rem := by
  unfold divStageMs divStage10 divStage250; dsimp only; split <;> (try split) <;> rfl
@[simp] theorem divStageMs_stepEn (c : Config) (r : Regs) : (divStageMs c r).stepEn = r.stepEn := by
  unfold divStageMs divStage10 divStage250; dsimp only; split <;> (try split) <;> rfl
@[simp] theorem divStageMs_deferred (c : Config) (r : Regs) : (divStageMs c r).deferred = r.deferred := by
  unfold divStageMs divStage10 divStage250; dsimp only; split <;> (try split) <;> rfl
@[simp] theorem divStageMs_inStep (c : Config) (r : Regs) : (divStageMs c r).inStep = r.inStep := by
  unfold divStageMs divStage10 divStage250; dsimp only; split <;> (try split) <;> rfl
@[simp] theorem divStageMs_ocrD (c : Config) (r : Regs) : (divStageMs c r).ocrD = r.ocrD := by
  unfold divStageMs divStage10 divStage250; dsimp only; split <;> (try split) <;> rfl
@[simp] theorem divStageMs_divEn (c : Config) (r : Regs) : (divStageMs c r).divEn = r.divEn := by
  unfold divStageMs divStage10 divStage250; dsimp only; split <;> (try split) <;> rfl

/-! ### `divMatch` -/

@[simp] theorem divMatch_pw (c : Config) (r : Regs) : (divMatch c r).1.pw = r.pw := by
  simp [divMatch]
@[simp] theorem divMatch_idx (c : Config) (r : Regs) : (divMatch c r).1.idx = r.idx := by
  simp [divMatch]
@[simp] theorem divMatch_period (c : Config) (r : Regs) : (divMatch c r).1.period = r.period := by
  simp [divMatch]
@[simp] theorem divMatch_pulse (c : Config) (r : Regs) : (divMatch c r).1.pulse = r.pulse := by
  simp [divMatch]
@[simp] theorem divMatch_scnt (c : Config) (r : Regs) : (divMatch c r).1.scnt = r.scnt := by
  simp [divMatch]
@[simp] theorem divMatch_tcnt (c : Config) (r : Regs) : (divMatch c r).1.tcnt = r.tcnt := by
  simp [divMatch]
@[simp] theorem divMatch_ocrS (c : Config) (r : Regs) : (divMatch c r).1.ocrS = r.ocrS := by
  simp [divMatch]
@[simp] theorem divMatch_rem (c : Config) (r : Regs) : (divMatch c r).1.rem = r.rem := by
  simp [divMatch]
@[simp] theorem divMatch_stepEn (c : Config) (r : Regs) : (divMatch c r).1.stepEn = r.stepEn := by
  simp [divMatch]
@[simp] theorem divMatch_deferred (c : Config) (r : Regs) : (divMatch c r).1.deferred = r.deferred := by
  simp [divMatch]
@[simp] theorem divMatch_inStep (c : Config) (r : Regs) : (divMatch c r).1.inStep = r.inStep := by
  simp [divMatch]
@[simp] theorem divMatch_ocrD (c : Config) (r : Regs) : (divMatch c r).1.ocrD = r.ocrD + BitVec.ofNat 16 c.divPeriod := by
  simp [divMatch]
@[simp] theorem divMatch_divEn (c : Config) (r : Regs) : (divMatch c r).1.divEn = r.divEn := by
  simp [divMatch]
@[simp] theorem divMatch_events (c : Config) (r : Regs) : (divMatch c r).2 = [.divEvent, .wdtKick] := rfl

/-! ### The machine's state -/

@[simp] theorem complete_inputs (res : CmdResult) (s : State) : (complete res s).inputs = s.inputs := by
  cases res <;> rfl
@[simp] theorem complete_events (res : CmdResult) (s : State) : (complete res s).events = [] := by
  cases res <;> rfl
@[simp] theorem complete_ok_regs (r : Regs) (data : BitVec 32) (s : State) :
    (complete (.ok (r, data)) s).regs = r := rfl
@[simp] theorem complete_ok_response (r : Regs) (data : BitVec 32) (s : State) :
    (complete (.ok (r, data)) s).response = some (responseWord .ok data) := rfl
@[simp] theorem complete_error_regs (e : Status) (s : State) : (complete (.error e) s).regs = s.regs := rfl
@[simp] theorem complete_error_response (e : Status) (s : State) :
    (complete (.error e) s).response = some (responseWord e 0#32) := rfl
@[simp] theorem endTick_regs (res : EventResult) (s : State) : (endTick res s).regs = res.1 := rfl
@[simp] theorem endTick_inputs (res : EventResult) (s : State) : (endTick res s).inputs = s.inputs := rfl
@[simp] theorem endTick_response (res : EventResult) (s : State) : (endTick res s).response = none := rfl
@[simp] theorem endTick_events (res : EventResult) (s : State) : (endTick res s).events = res.2 := rfl
@[simp] theorem resetTransition_regs (s : State) : (resetTransition s).regs = Regs.reset Config.hw := rfl
@[simp] theorem resetTransition_inputs (s : State) : (resetTransition s).inputs = s.inputs := rfl
@[simp] theorem resetTransition_response (s : State) : (resetTransition s).response = none := rfl
@[simp] theorem resetTransition_events (s : State) : (resetTransition s).events = [] := rfl
@[simp] theorem withFetchWord_regs (s : State) (nbits w : Nat) : (s.withFetchWord nbits w).regs = s.regs := rfl
@[simp] theorem withFetchWord_inputs (s : State) (nbits w : Nat) :
    (s.withFetchWord nbits w).inputs = .command (tableWord nbits w) :: s.inputs := rfl

end Sys2Proof.Machine
end

