-- ==== Sys2Proof/Laws/Ops.lean ====
section
/-! SUPPORT. For each shared operation, what it can do, said once. -/

namespace Sys2Proof.Machine

/-! ### Responses -/

@[simp] theorem statusField_responseWord (st : Status) (data : BitVec 32) :
    statusField (responseWord st data) = st.code := by
  cases st <;> simp only [statusField, responseWord, Status.code] <;>
    (apply BitVec.eq_of_getElem_eq; intro i hi
     simp only [BitVec.getElem_extractLsb', BitVec.getLsbD_append]
     rw [if_neg (by omega), show 32 + i - 32 = i by omega, BitVec.getLsbD_eq_getElem])

@[simp] theorem dataField_responseWord (st : Status) (data : BitVec 32) :
    dataField (responseWord st data) = data := by
  apply BitVec.eq_of_getElem_eq
  intro i hi
  simp only [dataField, responseWord, BitVec.getElem_extractLsb', BitVec.getLsbD_append]
  rw [if_pos (by omega), Nat.zero_add, BitVec.getLsbD_eq_getElem]

/-- A command completes with a new record and its data, or with an error and the old record (R13, R86). -/
theorem runCommand_cases (cmd : Regs → CmdResult) (s : State) :
    (∃ r data, cmd s.regs = .ok (r, data) ∧
      runCommand cmd s = { s with regs := r, response := some (responseWord .ok data), events := [] }) ∨
    (∃ e, cmd s.regs = .error e ∧
      runCommand cmd s = { s with response := some (responseWord e 0#32), events := [] }) := by
  unfold runCommand
  cases h : cmd s.regs with
  | error e => exact .inr ⟨e, rfl, rfl⟩
  | ok p => exact .inl ⟨p.1, p.2, rfl, rfl⟩

/-! ### The table -/

@[simp] theorem readPw_writePw_same (r : Regs) (i : Fin 16) (v : Ticks) : readPw (writePw r i v) i = v := by
  simp [readPw, writePw]

theorem readPw_writePw_other (r : Regs) (i j : Fin 16) (v : Ticks) (h : i ≠ j) :
    readPw (writePw r i v) j = readPw r j := by
  have : (i : Nat) ≠ j := fun e => h (Fin.ext e)
  simp [readPw, writePw, this]

/-! ### Operands -/

theorem channelOf_eq_some (sel : BitVec 8) (i : Fin 16) : channelOf sel = some i ↔ sel.toNat = i := by
  unfold channelOf
  split
  · rw [Option.some.injEq, Fin.ext_iff]
  · constructor
    · simp
    · intro h; have := i.isLt; omega

theorem channelOf_eq_none (sel : BitVec 8) : channelOf sel = none ↔ 16 ≤ sel.toNat := by
  unfold channelOf
  split <;> simp <;> omega

theorem pulseOf_eq_none (c : Config) (v : BitVec 32) :
    pulseOf c v = none ↔ v.toNat < c.minPulse ∨ c.maxPulseExcl ≤ v.toNat := by
  unfold pulseOf
  split <;> simp_all

theorem pulseOf_eq_some (c : Config) (v : BitVec 32) (w : Ticks) :
    pulseOf c v = some w ↔ c.minPulse ≤ v.toNat ∧ v.toNat < c.maxPulseExcl ∧ w = v.setWidth 16 := by
  unfold pulseOf
  split
  · simp; omega
  · simp only [Option.some.injEq]
    constructor
    · intro h; exact ⟨by omega, by omega, h.symm⟩
    · intro h; exact h.2.2.symm

theorem flagOf_eq_none (sel : BitVec 8) : flagOf sel = none ↔ 2 < sel.toNat := by
  unfold flagOf
  split <;> simp_all
  omega

theorem registerOf_eq_none (sel : BitVec 8) : registerOf sel = none ↔ 0x1E < sel.toNat := by
  unfold registerOf
  split
  · simp; omega
  · split <;> simp_all
    omega

/-! ### The scheduler's split -/

theorem programSegment_direct (c : Config) (b : Ticks) (n : Nat) (r : Regs) (h : n < 2 ^ 16) :
    programSegment c b n r = { r with ocrS := b + BitVec.ofNat 16 n, rem := BitVec.ofNat 32 n } := by
  rw [programSegment, if_pos h]

theorem programSegment_early (c : Config) (b : Ticks) (n : Nat) (r : Regs) (h : 2 ^ 16 ≤ n)
    (h' : n < 2 ^ 16 + c.early) :
    programSegment c b n r =
      { r with ocrS := b - BitVec.ofNat 16 c.early, rem := BitVec.ofNat 32 (n + c.early) } := by
  rw [programSegment, if_neg (by omega), if_pos h']

theorem programSegment_wrap (c : Config) (b : Ticks) (n : Nat) (r : Regs) (h : 2 ^ 16 + c.early ≤ n) :
    programSegment c b n r = { r with ocrS := b, rem := BitVec.ofNat 32 n } := by
  rw [programSegment, if_neg (by omega), if_neg (by omega)]

/-! ### The parts of a TICK -/

/-- What the commit part can do (R101, R136). -/
theorem commitPart_cases (r : Regs) :
    (r.deferred = true ∧ r.inStep = false ∧ commitPart r = commit r) ∨
    ((r.deferred = false ∨ r.inStep = true) ∧ commitPart r = r) := by
  unfold commitPart
  cases r.deferred <;> cases r.inStep <;> simp

/-- What the step part can do (R101, R133). -/
theorem stepPart_cases (c : Config) (r : Regs) :
    (¬(r.stepEn = true ∧ r.tcnt = r.ocrS) ∧ stepPart c r = (r, [])) ∨
    (r.stepEn = true ∧ r.tcnt = r.ocrS ∧ r.rem.toNat < 2 ^ 16 ∧ stepPart c r = realStep r) ∨
    (r.stepEn = true ∧ r.tcnt = r.ocrS ∧ 2 ^ 16 ≤ r.rem.toNat ∧ stepPart c r = intermediateWrap c r) := by
  unfold stepPart stepMatch
  split
  · next h =>
    obtain ⟨h1, h2⟩ := h
    split
    · exact .inr (.inl ⟨h1, h2, ‹_›, rfl⟩)
    · exact .inr (.inr ⟨h1, h2, by omega, rfl⟩)
  · exact .inl ⟨‹_›, rfl⟩

/-- What the divider part can do (R101, R160). -/
theorem divPart_cases (c : Config) (r : Regs) :
    (¬(r.divEn = true ∧ r.tcnt = r.ocrD) ∧ divPart c r = (r, [])) ∨
    (r.divEn = true ∧ r.tcnt = r.ocrD ∧ divPart c r = divMatch c r) := by
  unfold divPart
  split
  · next h => exact .inr ⟨h.1, h.2, rfl⟩
  · exact .inl ⟨‹_›, rfl⟩

/-- What the slot part can do (R112). -/
theorem slotTick_cases (r : Regs) :
    (r.scnt + 1#16 ≠ r.period ∧ slotTick r = ({ r with scnt := r.scnt + 1#16 }, [])) ∨
    (r.scnt + 1#16 = r.period ∧ slotTick r = slotBoundary { r with scnt := r.scnt + 1#16 }) := by
  unfold slotTick
  dsimp only
  split
  · exact .inr ⟨‹_›, rfl⟩
  · exact .inl ⟨‹_›, rfl⟩

/-- A counter stage below its threshold comes out below it, and says whether it wrapped (R161). -/
theorem countStage_spec (cnt : BitVec 8) (threshold : Nat) (h : cnt.toNat < threshold) :
    (cnt.toNat + 1 = threshold ∧ countStage cnt threshold = (0#8, true)) ∨
    (cnt.toNat + 1 < threshold ∧ countStage cnt threshold = (cnt + 1#8, false)) := by
  unfold countStage
  dsimp only
  by_cases he : threshold ≤ cnt.toNat + 1
  · rw [if_pos he]
    exact .inl ⟨by omega, by rw [show cnt.toNat + 1 - threshold = 0 by omega]⟩
  · rw [if_neg he]
    refine .inr ⟨by omega, ?_⟩
    rw [Prod.mk.injEq]
    refine ⟨BitVec.eq_of_toNat_eq ?_, rfl⟩
    simp [BitVec.toNat_add]

end Sys2Proof.Machine
end

