-- ==== Sys2Proof/Laws/PerInstr.lean ====
section
/-! SUPPORT. Statements made per instruction. -/

namespace Sys2Proof.Laws.EncodedWordIsInTable

/-- The word of an instruction is one of the opcode map's (spec/30_encoding.md R87). -/
def Statement (i : Instr) : Prop := wordWellFormed (encode i) = true

/-- A word packed from an opcode and fields has the row's fixed bits when its must-be-zero fields are 0. -/
theorem packCommand_and (op sel msel : BitVec 8) (imm mimm : BitVec 32) :
    packCommand op sel imm &&& packCommand 0xFF#8 msel mimm = packCommand op (sel &&& msel) (imm &&& mimm) := by
  unfold packCommand
  rw [BitVec.and_append, BitVec.and_append, show (0xFF#8) = BitVec.allOnes 8 from rfl, BitVec.and_allOnes]

theorem row_mem {w : CommandWord} (row : OpcodeRow) (hrow : row ∈ opcodeRows) (h : w &&& row.mask = row.pattern) :
    wordWellFormed w = true := by
  unfold wordWellFormed
  rw [List.any_eq_true]
  exact ⟨row, hrow, by simp [OpcodeRow.accepts, h]⟩

theorem setpw (ch : BitVec 8) (v : BitVec 32) : Statement (.setpw ch v) := by
  refine row_mem ⟨"SETPW", 0x010000000000#48, 0xFF0000000000#48⟩ (by simp [opcodeRows]) ?_
  have h := packCommand_and 0x01#8 ch 0#8 v 0#32
  simpa [packCommand, encode] using h

theorem getpw (ch : BitVec 8) : Statement (.getpw ch) := by
  refine row_mem ⟨"GETPW", 0x020000000000#48, 0xFF00FFFFFFFF#48⟩ (by simp [opcodeRows]) ?_
  have h := packCommand_and 0x02#8 ch 0#8 0#32 0xFFFFFFFF#32
  simpa [packCommand, encode] using h

theorem arm (d : BitVec 32) : Statement (.arm d) := by
  refine row_mem ⟨"ARM", 0x030000000000#48, 0xFFFF00000000#48⟩ (by simp [opcodeRows]) ?_
  have h := packCommand_and 0x03#8 0#8 0xFF#8 d 0#32
  simpa [packCommand, encode] using h

theorem stop : Statement .stop := by unfold Statement; decide

theorem tstclr (f : BitVec 8) : Statement (.tstclr f) := by
  refine row_mem ⟨"TSTCLR", 0x050000000000#48, 0xFF00FFFFFFFF#48⟩ (by simp [opcodeRows]) ?_
  have h := packCommand_and 0x05#8 f 0#8 0#32 0xFFFFFFFF#32
  simpa [packCommand, encode] using h

theorem rdreg (r : BitVec 8) : Statement (.rdreg r) := by
  refine row_mem ⟨"RDREG", 0x060000000000#48, 0xFF00FFFFFFFF#48⟩ (by simp [opcodeRows]) ?_
  have h := packCommand_and 0x06#8 r 0#8 0#32 0xFFFFFFFF#32
  simpa [packCommand, encode] using h

theorem stepdone : Statement .stepdone := by unfold Statement; decide

end Sys2Proof.Laws.EncodedWordIsInTable
end

