-- ==== Sys2Proof/Laws/Step.lean ====
section
/-! SUPPORT. What a step can do, said once: each command through its record function, each input through its
transition. -/

namespace Sys2Proof.Machine

/-- Every command is one transition over its record function at this hardware's configuration (R65). -/
theorem exec_eq_runCommand (i : Instr) (s : State) :
    exec i s = .next (runCommand (commandAt Config.hw i) s) := by
  cases i <;> rfl

/-- A command word: its command, or ERR_ILLEGAL (R84). -/
theorem runWord_cases (w : CommandWord) (s : State) :
    (∃ i, decode w = .ok i ∧ runWord w s = exec i s) ∨
    (∃ e, decode w = .error e ∧ runWord w s = .next (illegalWord s)) := by
  unfold runWord
  cases decode w with
  | ok i => exact .inl ⟨i, rfl, rfl⟩
  | error e => exact .inr ⟨e, rfl, rfl⟩

/-- The step on each form of the inputs (R68). -/
theorem step_nil (s : State) (h : s.inputs = []) : step s = .next (tickTransition s) := by
  unfold step; rw [h]

theorem step_tick (s : State) (rest : List Input) (h : s.inputs = .tick :: rest) :
    step s = .next (tickTransition { s with inputs := rest }) := by
  unfold step; rw [h]

theorem step_command (s : State) (w : CommandWord) (rest : List Input) (h : s.inputs = .command w :: rest) :
    step s = runWord w { s with inputs := rest } := by
  unfold step; rw [h]

theorem step_reset (s : State) (rest : List Input) (h : s.inputs = .reset :: rest) :
    step s = .next (resetTransition { s with inputs := rest }) := by
  unfold step; rw [h]

/-- What a step does to the record: a TICK, a command, an illegal word or a reset. -/
theorem step_cases (s t : State) (h : step s = .next t) :
    (t = tickTransition { s with inputs := s.inputs.tail } ∧ (s.inputs = [] ∨ s.inputs.head? = some .tick)) ∨
    (∃ w i, s.inputs.head? = some (.command w) ∧ decode w = .ok i ∧
      t = runCommand (commandAt Config.hw i) { s with inputs := s.inputs.tail }) ∨
    (∃ w e, s.inputs.head? = some (.command w) ∧ decode w = .error e ∧
      t = illegalWord { s with inputs := s.inputs.tail }) ∨
    (s.inputs.head? = some .reset ∧ t = resetTransition { s with inputs := s.inputs.tail }) := by
  match hs : s.inputs with
  | [] =>
    rw [step_nil s hs] at h
    refine .inl ⟨?_, .inl rfl⟩
    cases h
    cases s
    simp_all
  | .tick :: rest =>
    rw [step_tick s rest hs] at h
    cases h
    exact .inl ⟨rfl, .inr rfl⟩
  | .command w :: rest =>
    rw [step_command s w rest hs] at h
    rcases runWord_cases w { s with inputs := rest } with ⟨i, hd, hr⟩ | ⟨e, hd, hr⟩
    · rw [hr, exec_eq_runCommand] at h
      cases h
      exact .inr (.inl ⟨w, i, rfl, hd, rfl⟩)
    · rw [hr] at h
      cases h
      exact .inr (.inr (.inl ⟨w, e, rfl, hd, rfl⟩))
  | .reset :: rest =>
    rw [step_reset s rest hs] at h
    cases h
    exact .inr (.inr (.inr ⟨rfl, rfl⟩))

end Sys2Proof.Machine
end

