-- ==== Sys2Proof/Laws/Tick.lean ====
section
/-! SUPPORT. What a TICK does to each group of elements: the scheduler's come from its step part, the divider's from its
divider part, the slot's from its slot part; the three share no element (spec/40_tick_source.md R102). -/

namespace Sys2Proof.Machine

/-! ### What each part leaves alone -/

@[simp] theorem commitPart_pw (r : Regs) : (commitPart r).pw = r.pw := by
  rcases commitPart_cases r with ⟨_, _, h⟩ | ⟨_, h⟩ <;> simp [h]
@[simp] theorem commitPart_idx (r : Regs) : (commitPart r).idx = r.idx := by
  rcases commitPart_cases r with ⟨_, _, h⟩ | ⟨_, h⟩ <;> simp [h]
@[simp] theorem commitPart_period (r : Regs) : (commitPart r).period = r.period := by
  rcases commitPart_cases r with ⟨_, _, h⟩ | ⟨_, h⟩ <;> simp [h]
@[simp] theorem commitPart_pulse (r : Regs) : (commitPart r).pulse = r.pulse := by
  rcases commitPart_cases r with ⟨_, _, h⟩ | ⟨_, h⟩ <;> simp [h]
@[simp] theorem commitPart_scnt (r : Regs) : (commitPart r).scnt = r.scnt := by
  rcases commitPart_cases r with ⟨_, _, h⟩ | ⟨_, h⟩ <;> simp [h]
@[simp] theorem commitPart_tcnt (r : Regs) : (commitPart r).tcnt = r.tcnt := by
  rcases commitPart_cases r with ⟨_, _, h⟩ | ⟨_, h⟩ <;> simp [h]
@[simp] theorem commitPart_ocrS (r : Regs) : (commitPart r).ocrS = r.ocrS := by
  rcases commitPart_cases r with ⟨_, _, h⟩ | ⟨_, h⟩ <;> simp [h]
@[simp] theorem commitPart_rem (r : Regs) : (commitPart r).rem = r.rem := by
  rcases commitPart_cases r with ⟨_, _, h⟩ | ⟨_, h⟩ <;> simp [h]
@[simp] theorem commitPart_inStep (r : Regs) : (commitPart r).inStep = r.inStep := by
  rcases commitPart_cases r with ⟨_, _, h⟩ | ⟨_, h⟩ <;> simp [h]
@[simp] theorem commitPart_ocrD (r : Regs) : (commitPart r).ocrD = r.ocrD := by
  rcases commitPart_cases r with ⟨_, _, h⟩ | ⟨_, h⟩ <;> simp [h]
@[simp] theorem commitPart_divEn (r : Regs) : (commitPart r).divEn = r.divEn := by
  rcases commitPart_cases r with ⟨_, _, h⟩ | ⟨_, h⟩ <;> simp [h]
@[simp] theorem commitPart_cntMs (r : Regs) : (commitPart r).cntMs = r.cntMs := by
  rcases commitPart_cases r with ⟨_, _, h⟩ | ⟨_, h⟩ <;> simp [h]
@[simp] theorem commitPart_cnt10ms (r : Regs) : (commitPart r).cnt10ms = r.cnt10ms := by
  rcases commitPart_cases r with ⟨_, _, h⟩ | ⟨_, h⟩ <;> simp [h]
@[simp] theorem commitPart_cnt250ms (r : Regs) : (commitPart r).cnt250ms = r.cnt250ms := by
  rcases commitPart_cases r with ⟨_, _, h⟩ | ⟨_, h⟩ <;> simp [h]
@[simp] theorem commitPart_f10ms (r : Regs) : (commitPart r).f10ms = r.f10ms := by
  rcases commitPart_cases r with ⟨_, _, h⟩ | ⟨_, h⟩ <;> simp [h]
@[simp] theorem commitPart_f250ms (r : Regs) : (commitPart r).f250ms = r.f250ms := by
  rcases commitPart_cases r with ⟨_, _, h⟩ | ⟨_, h⟩ <;> simp [h]
@[simp] theorem commitPart_f1s (r : Regs) : (commitPart r).f1s = r.f1s := by
  rcases commitPart_cases r with ⟨_, _, h⟩ | ⟨_, h⟩ <;> simp [h]
@[simp] theorem stepPart_pw (c : Config) (r : Regs) : (stepPart c r).1.pw = r.pw := by
  rcases stepPart_cases c r with ⟨_, h⟩ | ⟨_, _, _, h⟩ | ⟨_, _, _, h⟩ <;> simp [h, intermediateWrap]
@[simp] theorem stepPart_idx (c : Config) (r : Regs) : (stepPart c r).1.idx = r.idx := by
  rcases stepPart_cases c r with ⟨_, h⟩ | ⟨_, _, _, h⟩ | ⟨_, _, _, h⟩ <;> simp [h, intermediateWrap]
@[simp] theorem stepPart_period (c : Config) (r : Regs) : (stepPart c r).1.period = r.period := by
  rcases stepPart_cases c r with ⟨_, h⟩ | ⟨_, _, _, h⟩ | ⟨_, _, _, h⟩ <;> simp [h, intermediateWrap]
@[simp] theorem stepPart_pulse (c : Config) (r : Regs) : (stepPart c r).1.pulse = r.pulse := by
  rcases stepPart_cases c r with ⟨_, h⟩ | ⟨_, _, _, h⟩ | ⟨_, _, _, h⟩ <;> simp [h, intermediateWrap]
@[simp] theorem stepPart_scnt (c : Config) (r : Regs) : (stepPart c r).1.scnt = r.scnt := by
  rcases stepPart_cases c r with ⟨_, h⟩ | ⟨_, _, _, h⟩ | ⟨_, _, _, h⟩ <;> simp [h, intermediateWrap]
@[simp] theorem stepPart_tcnt (c : Config) (r : Regs) : (stepPart c r).1.tcnt = r.tcnt := by
  rcases stepPart_cases c r with ⟨_, h⟩ | ⟨_, _, _, h⟩ | ⟨_, _, _, h⟩ <;> simp [h, intermediateWrap]
@[simp] theorem stepPart_ocrD (c : Config) (r : Regs) : (stepPart c r).1.ocrD = r.ocrD := by
  rcases stepPart_cases c r with ⟨_, h⟩ | ⟨_, _, _, h⟩ | ⟨_, _, _, h⟩ <;> simp [h, intermediateWrap]
@[simp] theorem stepPart_divEn (c : Config) (r : Regs) : (stepPart c r).1.divEn = r.divEn := by
  rcases stepPart_cases c r with ⟨_, h⟩ | ⟨_, _, _, h⟩ | ⟨_, _, _, h⟩ <;> simp [h, intermediateWrap]
@[simp] theorem stepPart_cntMs (c : Config) (r : Regs) : (stepPart c r).1.cntMs = r.cntMs := by
  rcases stepPart_cases c r with ⟨_, h⟩ | ⟨_, _, _, h⟩ | ⟨_, _, _, h⟩ <;> simp [h, intermediateWrap]
@[simp] theorem stepPart_cnt10ms (c : Config) (r : Regs) : (stepPart c r).1.cnt10ms = r.cnt10ms := by
  rcases stepPart_cases c r with ⟨_, h⟩ | ⟨_, _, _, h⟩ | ⟨_, _, _, h⟩ <;> simp [h, intermediateWrap]
@[simp] theorem stepPart_cnt250ms (c : Config) (r : Regs) : (stepPart c r).1.cnt250ms = r.cnt250ms := by
  rcases stepPart_cases c r with ⟨_, h⟩ | ⟨_, _, _, h⟩ | ⟨_, _, _, h⟩ <;> simp [h, intermediateWrap]
@[simp] theorem stepPart_f10ms (c : Config) (r : Regs) : (stepPart c r).1.f10ms = r.f10ms := by
  rcases stepPart_cases c r with ⟨_, h⟩ | ⟨_, _, _, h⟩ | ⟨_, _, _, h⟩ <;> simp [h, intermediateWrap]
@[simp] theorem stepPart_f250ms (c : Config) (r : Regs) : (stepPart c r).1.f250ms = r.f250ms := by
  rcases stepPart_cases c r with ⟨_, h⟩ | ⟨_, _, _, h⟩ | ⟨_, _, _, h⟩ <;> simp [h, intermediateWrap]
@[simp] theorem stepPart_f1s (c : Config) (r : Regs) : (stepPart c r).1.f1s = r.f1s := by
  rcases stepPart_cases c r with ⟨_, h⟩ | ⟨_, _, _, h⟩ | ⟨_, _, _, h⟩ <;> simp [h, intermediateWrap]
@[simp] theorem divPart_pw (c : Config) (r : Regs) : (divPart c r).1.pw = r.pw := by
  rcases divPart_cases c r with ⟨_, h⟩ | ⟨_, _, h⟩ <;> simp [h]
@[simp] theorem divPart_idx (c : Config) (r : Regs) : (divPart c r).1.idx = r.idx := by
  rcases divPart_cases c r with ⟨_, h⟩ | ⟨_, _, h⟩ <;> simp [h]
@[simp] theorem divPart_period (c : Config) (r : Regs) : (divPart c r).1.period = r.period := by
  rcases divPart_cases c r with ⟨_, h⟩ | ⟨_, _, h⟩ <;> simp [h]
@[simp] theorem divPart_pulse (c : Config) (r : Regs) : (divPart c r).1.pulse = r.pulse := by
  rcases divPart_cases c r with ⟨_, h⟩ | ⟨_, _, h⟩ <;> simp [h]
@[simp] theorem divPart_scnt (c : Config) (r : Regs) : (divPart c r).1.scnt = r.scnt := by
  rcases divPart_cases c r with ⟨_, h⟩ | ⟨_, _, h⟩ <;> simp [h]
@[simp] theorem divPart_tcnt (c : Config) (r : Regs) : (divPart c r).1.tcnt = r.tcnt := by
  rcases divPart_cases c r with ⟨_, h⟩ | ⟨_, _, h⟩ <;> simp [h]
@[simp] theorem divPart_ocrS (c : Config) (r : Regs) : (divPart c r).1.ocrS = r.ocrS := by
  rcases divPart_cases c r with ⟨_, h⟩ | ⟨_, _, h⟩ <;> simp [h]
@[simp] theorem divPart_rem (c : Config) (r : Regs) : (divPart c r).1.rem = r.rem := by
  rcases divPart_cases c r with ⟨_, h⟩ | ⟨_, _, h⟩ <;> simp [h]
@[simp] theorem divPart_stepEn (c : Config) (r : Regs) : (divPart c r).1.stepEn = r.stepEn := by
  rcases divPart_cases c r with ⟨_, h⟩ | ⟨_, _, h⟩ <;> simp [h]
@[simp] theorem divPart_deferred (c : Config) (r : Regs) : (divPart c r).1.deferred = r.deferred := by
  rcases divPart_cases c r with ⟨_, h⟩ | ⟨_, _, h⟩ <;> simp [h]
@[simp] theorem divPart_inStep (c : Config) (r : Regs) : (divPart c r).1.inStep = r.inStep := by
  rcases divPart_cases c r with ⟨_, h⟩ | ⟨_, _, h⟩ <;> simp [h]
@[simp] theorem divPart_divEn (c : Config) (r : Regs) : (divPart c r).1.divEn = r.divEn := by
  rcases divPart_cases c r with ⟨_, h⟩ | ⟨_, _, h⟩ <;> simp [h]
@[simp] theorem slotTick_pw (r : Regs) : (slotTick r).1.pw = r.pw := by
  rcases slotTick_cases r with ⟨_, h⟩ | ⟨_, h⟩ <;> simp [h]
@[simp] theorem slotTick_tcnt (r : Regs) : (slotTick r).1.tcnt = r.tcnt := by
  rcases slotTick_cases r with ⟨_, h⟩ | ⟨_, h⟩ <;> simp [h]
@[simp] theorem slotTick_ocrS (r : Regs) : (slotTick r).1.ocrS = r.ocrS := by
  rcases slotTick_cases r with ⟨_, h⟩ | ⟨_, h⟩ <;> simp [h]
@[simp] theorem slotTick_rem (r : Regs) : (slotTick r).1.rem = r.rem := by
  rcases slotTick_cases r with ⟨_, h⟩ | ⟨_, h⟩ <;> simp [h]
@[simp] theorem slotTick_stepEn (r : Regs) : (slotTick r).1.stepEn = r.stepEn := by
  rcases slotTick_cases r with ⟨_, h⟩ | ⟨_, h⟩ <;> simp [h]
@[simp] theorem slotTick_deferred (r : Regs) : (slotTick r).1.deferred = r.deferred := by
  rcases slotTick_cases r with ⟨_, h⟩ | ⟨_, h⟩ <;> simp [h]
@[simp] theorem slotTick_inStep (r : Regs) : (slotTick r).1.inStep = r.inStep := by
  rcases slotTick_cases r with ⟨_, h⟩ | ⟨_, h⟩ <;> simp [h]
@[simp] theorem slotTick_ocrD (r : Regs) : (slotTick r).1.ocrD = r.ocrD := by
  rcases slotTick_cases r with ⟨_, h⟩ | ⟨_, h⟩ <;> simp [h]
@[simp] theorem slotTick_divEn (r : Regs) : (slotTick r).1.divEn = r.divEn := by
  rcases slotTick_cases r with ⟨_, h⟩ | ⟨_, h⟩ <;> simp [h]
@[simp] theorem slotTick_cntMs (r : Regs) : (slotTick r).1.cntMs = r.cntMs := by
  rcases slotTick_cases r with ⟨_, h⟩ | ⟨_, h⟩ <;> simp [h]
@[simp] theorem slotTick_cnt10ms (r : Regs) : (slotTick r).1.cnt10ms = r.cnt10ms := by
  rcases slotTick_cases r with ⟨_, h⟩ | ⟨_, h⟩ <;> simp [h]
@[simp] theorem slotTick_cnt250ms (r : Regs) : (slotTick r).1.cnt250ms = r.cnt250ms := by
  rcases slotTick_cases r with ⟨_, h⟩ | ⟨_, h⟩ <;> simp [h]
@[simp] theorem slotTick_f10ms (r : Regs) : (slotTick r).1.f10ms = r.f10ms := by
  rcases slotTick_cases r with ⟨_, h⟩ | ⟨_, h⟩ <;> simp [h]
@[simp] theorem slotTick_f250ms (r : Regs) : (slotTick r).1.f250ms = r.f250ms := by
  rcases slotTick_cases r with ⟨_, h⟩ | ⟨_, h⟩ <;> simp [h]
@[simp] theorem slotTick_f1s (r : Regs) : (slotTick r).1.f1s = r.f1s := by
  rcases slotTick_cases r with ⟨_, h⟩ | ⟨_, h⟩ <;> simp [h]

/-! ### The events of each part -/

/-- The step part emits nothing, a step or a wrap. -/
theorem stepPart_events (c : Config) (r : Regs) :
    (stepPart c r).2 = [] ∨ (stepPart c r).2 = [.stepFire] ∨ (stepPart c r).2 = [.stepWrap] := by
  rcases stepPart_cases c r with ⟨_, h⟩ | ⟨_, _, _, h⟩ | ⟨_, _, _, h⟩ <;> rw [h]
  · exact .inl rfl
  · exact .inr (.inl rfl)
  · exact .inr (.inr rfl)

/-- The divider part emits nothing, or a period and its watchdog kick. -/
theorem divPart_events (c : Config) (r : Regs) :
    (divPart c r).2 = [] ∨ (divPart c r).2 = [.divEvent, .wdtKick] := by
  rcases divPart_cases c r with ⟨_, h⟩ | ⟨_, _, h⟩ <;> rw [h]
  · exact .inl rfl
  · exact .inr rfl

/-- The slot part emits nothing, or the boundary of the channel it selects and its watchdog kick. -/
theorem slotTick_events (r : Regs) :
    (slotTick r).2 = [] ∨ (slotTick r).2 = [.muxBoundary (slotTick r).1.idx, .wdtKick] := by
  rcases slotTick_cases r with ⟨_, h⟩ | ⟨_, h⟩ <;> rw [h]
  · exact .inl rfl
  · exact .inr rfl

/-! ### A TICK, group by group -/

/-- The record after the step part of a TICK. -/
abbrev afterStep (c : Config) (r : Regs) : EventResult := stepPart c (commitPart (countTick r))

/-- The record after the divider part of a TICK. -/
abbrev afterDiv (c : Config) (r : Regs) : EventResult := divPart c (afterStep c r).1

theorem tick_events (c : Config) (r : Regs) :
    (tick c r).2 = (afterStep c r).2 ++ (afterDiv c r).2 ++ (slotTick (afterDiv c r).1).2 := rfl

@[simp] theorem tick_pw (c : Config) (r : Regs) : (tick c r).1.pw = r.pw := by
  simp [tick]
@[simp] theorem tick_tcnt (c : Config) (r : Regs) : (tick c r).1.tcnt = r.tcnt + 1#16 := by
  simp [tick]
@[simp] theorem tick_divEn (c : Config) (r : Regs) : (tick c r).1.divEn = r.divEn := by
  simp [tick]
theorem tick_ocrS (c : Config) (r : Regs) : (tick c r).1.ocrS = (afterStep c r).1.ocrS := by
  simp [tick, afterStep]
theorem tick_rem (c : Config) (r : Regs) : (tick c r).1.rem = (afterStep c r).1.rem := by
  simp [tick, afterStep]
theorem tick_stepEn (c : Config) (r : Regs) : (tick c r).1.stepEn = (afterStep c r).1.stepEn := by
  simp [tick, afterStep]
theorem tick_deferred (c : Config) (r : Regs) : (tick c r).1.deferred = (afterStep c r).1.deferred := by
  simp [tick, afterStep]
theorem tick_inStep (c : Config) (r : Regs) : (tick c r).1.inStep = (afterStep c r).1.inStep := by
  simp [tick, afterStep]
theorem tick_ocrD (c : Config) (r : Regs) : (tick c r).1.ocrD = (afterDiv c r).1.ocrD := by
  simp [tick, afterDiv, afterStep]
theorem tick_cntMs (c : Config) (r : Regs) : (tick c r).1.cntMs = (afterDiv c r).1.cntMs := by
  simp [tick, afterDiv, afterStep]
theorem tick_cnt10ms (c : Config) (r : Regs) : (tick c r).1.cnt10ms = (afterDiv c r).1.cnt10ms := by
  simp [tick, afterDiv, afterStep]
theorem tick_cnt250ms (c : Config) (r : Regs) : (tick c r).1.cnt250ms = (afterDiv c r).1.cnt250ms := by
  simp [tick, afterDiv, afterStep]
theorem tick_f10ms (c : Config) (r : Regs) : (tick c r).1.f10ms = (afterDiv c r).1.f10ms := by
  simp [tick, afterDiv, afterStep]
theorem tick_f250ms (c : Config) (r : Regs) : (tick c r).1.f250ms = (afterDiv c r).1.f250ms := by
  simp [tick, afterDiv, afterStep]
theorem tick_f1s (c : Config) (r : Regs) : (tick c r).1.f1s = (afterDiv c r).1.f1s := by
  simp [tick, afterDiv, afterStep]
theorem tick_idx (c : Config) (r : Regs) : (tick c r).1.idx = (slotTick (afterDiv c r).1).1.idx := rfl
theorem tick_period (c : Config) (r : Regs) : (tick c r).1.period = (slotTick (afterDiv c r).1).1.period := rfl
theorem tick_pulse (c : Config) (r : Regs) : (tick c r).1.pulse = (slotTick (afterDiv c r).1).1.pulse := rfl
theorem tick_scnt (c : Config) (r : Regs) : (tick c r).1.scnt = (slotTick (afterDiv c r).1).1.scnt := rfl

/-- A step fires in a TICK exactly when its step part fires it. -/
theorem stepFire_mem_tick (c : Config) (r : Regs) :
    .stepFire ∈ (tick c r).2 ↔ .stepFire ∈ (afterStep c r).2 := by
  rw [tick_events]
  rcases divPart_events c (afterStep c r).1 with h | h <;>
    rcases slotTick_events (afterDiv c r).1 with h' | h' <;> simp [afterDiv, h, h'] at *

/-- A divider period ends in a TICK exactly when its divider part says so. -/
theorem divEvent_mem_tick (c : Config) (r : Regs) :
    .divEvent ∈ (tick c r).2 ↔ .divEvent ∈ (afterDiv c r).2 := by
  rw [tick_events]
  rcases stepPart_events c (commitPart (countTick r)) with h | h | h <;>
    rcases slotTick_events (afterDiv c r).1 with h' | h' <;> simp [h, h']

end Sys2Proof.Machine
end

