-- ==== Sys2Proof/Tests/Slice0.lean ====
section
/-! SUPPORT. Tests: expected values are those of spec/30_encoding.md R93, of the vectors of spec/95_test_vectors.md, and
of the worked examples the rules give. Below them, for every obligation with hypotheses, a concrete state and operands
that meet them all. -/

namespace Sys2Proof.Tests

open Sys2Proof.Machine Sys2Proof.Safety

/-! ### Helpers -/

/-- The configuration of the vectors: `DIV_PERIOD = 1000`, `P_STOP_DISABLES_DIVIDER = false`. -/
abbrev vec : Config := Config.hwWith 1000 false

/-- The record after reset in the vectors' configuration. -/
abbrev base : Regs := Regs.reset vec

/-- A state with the record and the inputs to come. -/
abbrev stateOf (r : Regs) (inputs : List Input) : State := ⟨r, inputs, none, []⟩

/-- One transition in the vectors' configuration. -/
abbrev one (r : Regs) (input : Input) : State := stepAt vec (stateOf r [input])

/-- The next state, where there is one. -/
def nextOf : Host.Outcome State Fault Refusal → Option State
  | .next s => some s
  | .fault _ => none
  | .refused _ => none

/-- The response and the record after a command of this hardware. -/
def answer (o : Host.Outcome State Fault Refusal) : Option (Option ResponseWord × Regs) :=
  (nextOf o).map fun s => (s.response, s.regs)

/-! ### Decoding: a word of every row, written out from R87's pattern (examples of R93) -/

theorem test_decode_setpw : decode 0b00000001_00000011_00000000000000000000011111010000#48
    = .ok (.setpw 3#8 2000#32) := by rfl
theorem test_decode_getpw : decode 0b00000010_00000011_00000000000000000000000000000000#48
    = .ok (.getpw 3#8) := by rfl
theorem test_decode_arm : decode 0b00000011_00000000_00000000000000100100100111110000#48
    = .ok (.arm 150000#32) := by rfl
theorem test_decode_stop : decode 0b00000100_00000000_00000000000000000000000000000000#48 = .ok .stop := by rfl
theorem test_decode_tstclr : decode 0b00000101_00000010_00000000000000000000000000000000#48
    = .ok (.tstclr 2#8) := by rfl
theorem test_decode_rdreg : decode 0b00000110_00010100_00000000000000000000000000000000#48
    = .ok (.rdreg 0x14#8) := by rfl
theorem test_decode_stepdone : decode 0b00000111_00000000_00000000000000000000000000000000#48
    = .ok .stepdone := by rfl
theorem test_encode_setpw : encode (.setpw 15#8 600#32) = 0x010F00000258#48 := by rfl
theorem test_encode_arm : encode (.arm 1000#32) = 0x0300000003E8#48 := by rfl
theorem test_table_word_setpw : decodeTableWord 48 0x0103000007D0 = some (.setpw 3#8 2000#32) := by rfl
theorem test_table_word_stop : decodeTableWord 48 0x040000000000 = some .stop := by rfl

/-! ### WellFormed: an ill-formed term for each check, refused (vectors K1-K8) -/

theorem test_word_op_zero_ill_formed :
    wordWellFormed 0x000000000000#48 = false ∧ decode 0x000000000000#48 = .error .illegalOpcode := ⟨by decide, rfl⟩
theorem test_word_op_08_ill_formed :
    wordWellFormed 0x080000000000#48 = false ∧ decode 0x080000000000#48 = .error .illegalOpcode := ⟨by decide, rfl⟩
theorem test_word_op_ff_ill_formed :
    wordWellFormed 0xFF0000000000#48 = false ∧ decode 0xFF0000000000#48 = .error .illegalOpcode := ⟨by decide, rfl⟩
theorem test_word_getpw_imm_ill_formed :
    wordWellFormed 0x020300000001#48 = false ∧ decode 0x020300000001#48 = .error .immediateNotZero := ⟨by decide, rfl⟩
theorem test_word_arm_sel_ill_formed :
    wordWellFormed 0x0301000003E8#48 = false ∧ decode 0x0301000003E8#48 = .error .selectorNotZero := ⟨by decide, rfl⟩
theorem test_word_stop_imm_ill_formed :
    wordWellFormed 0x040000000001#48 = false ∧ decode 0x040000000001#48 = .error .immediateNotZero := ⟨by decide, rfl⟩
theorem test_word_tstclr_imm_ill_formed :
    wordWellFormed 0x050200000001#48 = false ∧ decode 0x050200000001#48 = .error .immediateNotZero := ⟨by decide, rfl⟩
theorem test_word_rdreg_imm_ill_formed :
    wordWellFormed 0x061F00000001#48 = false ∧ decode 0x061F00000001#48 = .error .immediateNotZero := ⟨by decide, rfl⟩
theorem test_word_stepdone_sel_ill_formed :
    wordWellFormed 0x070100000000#48 = false ∧ decode 0x070100000000#48 = .error .selectorNotZero := ⟨by decide, rfl⟩
theorem test_word_setpw_any_field_well_formed : wordWellFormed 0x01FF000005DC#48 = true := by decide

theorem test_asm_setpw_channel_too_wide : assemble (.setpw 256 0) = none := by decide
theorem test_asm_setpw_value_too_wide : assemble (.setpw 0 4294967296) = none := by decide
theorem test_asm_getpw_too_wide : assemble (.getpw 256) = none := by decide
theorem test_asm_arm_too_wide : assemble (.arm 4294967296) = none := by decide
theorem test_asm_tstclr_too_wide : assemble (.tstclr 256) = none := by decide
theorem test_asm_rdreg_too_wide : assemble (.rdreg 256) = none := by decide
/-- R91: a channel of 20 assembles (the block refuses it at run time). -/
theorem test_asm_channel_20_assembles : assemble (.getpw 20) = some 0x021400000000#48 := by decide
theorem test_asm_cancel : assemble .cancel = some 0x030000000000#48 := by decide
theorem test_asm_text_setpw :
    assembleLine "SETPW 3, 2000 ; widen".toList = some [.command 0x0103000007D0#48] := by decide
theorem test_asm_text_names : assembleLine "RDREG OCR_S".toList = some [.command 0x061500000000#48] ∧
    assembleLine "TSTCLR F1S".toList = some [.command 0x050200000000#48] ∧
    assembleLine "ARM 0x3e8".toList = some [.command 0x0300000003E8#48] := by decide
theorem test_asm_text_wait : assembleLine "WAIT 2".toList = some [.tick, .tick] := by decide
theorem test_asm_text_missing_comma : assembleLine "SETPW 3 2000".toList = none := by decide

/-! ### Bytes (R62, R63) -/

theorem test_bytes_least_significant_first :
    commandBytes 0x0103000007D0#48 = [0xD0#8, 0x07#8, 0x00#8, 0x00#8, 0x03#8, 0x01#8] := by decide
theorem test_partial_word_is_no_command : decodeBytes [0xD0#8, 0x07#8, 0x00#8, 0x00#8, 0x03#8] = .error .partialWord := by
  rfl

/-! ### Commands (vectors M1-M10, S14, S15, D6, D8, section 2.6) -/

theorem test_setpw_accepts_600 : answer (exec (.setpw 0#8 600#32) (stateOf base [])) =
    some (some 0x0000000000#40, { base with pw := base.pw.set 0 600#16 }) := by decide
theorem test_setpw_checks_32_bits : answer (exec (.setpw 0#8 0x107D0#32) (stateOf base [])) =
    some (some 0x0200000000#40, base) := by decide
theorem test_getpw_15 : answer (exec (.getpw 15#8) (stateOf base [])) = some (some 0x00000005DC#40, base) := by decide
theorem test_getpw_16 : answer (exec (.getpw 16#8) (stateOf base [])) = some (some 0x0200000000#40, base) := by decide
theorem test_arm_1000 : answer (exec (.arm 1000#32) (stateOf { base with tcnt := 100#16 } [])) =
    some (some 0#40, { base with tcnt := 100#16, ocrS := 1100#16, rem := 1000#32, deferred := true }) := by decide
theorem test_arm_65536_fires_early : answer (exec (.arm 65536#32) (stateOf { base with tcnt := 100#16 } [])) =
    some (some 0#40, { base with tcnt := 100#16, ocrS := 55636#16, rem := 75536#32, deferred := true }) := by decide
theorem test_stop : (one { base with stepEn := true, rem := 150000#32 } (.command 0x040000000000#48)).regs =
    { base with rem := 150000#32 } := by decide
/-- Vector D9: with the OPEN parameter true STOP disables the divider. -/
theorem test_stop_disables_divider :
    (stepAt (Config.hwWith 1000 true) (stateOf base [.command 0x040000000000#48])).regs =
      { base with divEn := false } := by decide
theorem test_tstclr_f1s : answer (exec (.tstclr 2#8) (stateOf { base with f1s := true } [])) =
    some (some 0x0000000001#40, base) := by decide
theorem test_tstclr_3 : answer (exec (.tstclr 3#8) (stateOf base [])) = some (some 0x0200000000#40, base) := by decide
/-- Program P6's PINS value. -/
theorem test_rdreg_pins : answer (exec (.rdreg 0x1E#8)
    (stateOf { base with idx := 13#4, scnt := 991#16, inStep := true } [])) =
    some (some 0x00000000D3#40, { base with idx := 13#4, scnt := 991#16, inStep := true }) := by decide
theorem test_rdreg_reserved : answer (exec (.rdreg 0x1F#8) (stateOf base [])) =
    some (some 0x0200000000#40, base) := by decide
theorem test_stepdone_commits : answer (exec .stepdone (stateOf { base with inStep := true, deferred := true } [])) =
    some (some 0#40, { base with stepEn := true }) := by decide
theorem test_stepdone_without_step : answer (exec .stepdone (stateOf base [])) = some (some 0x0300000000#40, base) := by
  decide

/-! ### TICK (vectors T1-T3, M12, M13, S20, D1, D3) -/

theorem test_tick_from_reset : (one base .tick).regs = { base with tcnt := 1#16, scnt := 1#16 } ∧
    (one base .tick).events = [] := by decide
theorem test_tick_wraps : (one { base with tcnt := 0xFFFF#16 } .tick).regs.tcnt = 0#16 ∧
    (one { base with tcnt := 0xFFFF#16 } .tick).events = [] := by decide
theorem test_step_before_divider :
    (one { base with tcnt := 999#16, ocrS := 1000#16, rem := 1000#32, stepEn := true } .tick).events =
      [.stepFire, .divEvent, .wdtKick] := by decide
theorem test_boundary_wraps_index :
    (one { base with idx := 15#4, scnt := 1500#16, tcnt := 7#16 } .tick).regs =
      { base with idx := 0#4, scnt := 0#16, tcnt := 8#16 } ∧
    (one { base with idx := 15#4, scnt := 1500#16, tcnt := 7#16 } .tick).events =
      [.muxBoundary 0#4, .wdtKick] := by decide
theorem test_settle_tick : servoOut (one { base with scnt := 1498#16 } .tick).regs = true ∧
    servoOut (one { base with scnt := 1499#16 } .tick).regs = false := by decide
theorem test_intermediate_wrap :
    (one { base with tcnt := 0xFFFF#16, rem := 84464#32, stepEn := true } .tick).regs =
      { base with tcnt := 0#16, scnt := 1#16, rem := 18928#32, ocrS := 18928#16, stepEn := true } ∧
    (one { base with tcnt := 0xFFFF#16, rem := 84464#32, stepEn := true } .tick).events = [.stepWrap] := by decide
theorem test_divider_cascade :
    (one { base with tcnt := 999#16, cntMs := 9#8, cnt10ms := 24#8, cnt250ms := 3#8 } .tick).regs =
      { base with tcnt := 1000#16, scnt := 1#16, ocrD := 2000#16, f10ms := true, f250ms := true, f1s := true } := by
  decide
theorem test_commit_then_match_in_one_tick :
    (one { base with tcnt := 16#16, ocrS := 17#16, rem := 17#32, deferred := true } .tick).events = [.stepFire] := by
  decide

/-! ### The step -/

theorem test_step_runs_placed_word :
    (nextOf (step (State.reset.withFetchWord 48 0x021000000000))).map (fun s => s.response) =
      some (some 0x0200000000#40) := by decide
theorem test_bad_configuration_refused : powerOn (Config.hwWith 0 false) = .refused .badConfiguration := by rfl

/-! ### Witnesses: for each obligation with hypotheses, concrete values that meet them -/

theorem witness_EncodeOfDecode : ∃ w i, decode w = .ok i := ⟨0x040000000000#48, .stop, rfl⟩
theorem witness_BusBytesDeliverWholeWords : [1#8, 2#8, 3#8, 4#8, 5#8].length < 6 := by decide
/-- Each form at the last number its field holds; the tests `test_asm_…_too_wide` have the first that it does not. -/
theorem witness_AssembledLinesDecode :
    assemble (.setpw 255 4294967295) = some 0x01FFFFFFFFFF#48 ∧ assemble (.getpw 255) = some 0x02FF00000000#48 ∧
    assemble (.arm 4294967295) = some 0x0300FFFFFFFF#48 ∧ assemble .stop = some 0x040000000000#48 ∧
    assemble (.tstclr 255) = some 0x05FF00000000#48 ∧ assemble (.rdreg 255) = some 0x06FF00000000#48 ∧
    assemble .stepdone = some 0x070000000000#48 := by decide
theorem witness_PowerOnRefusesBadConfigurations : ¬(Config.hwWith 0 false).Valid ∧ ¬(Config.hwWith 65536 true).Valid ∧
    (Config.hwWith 1 false).Valid ∧ (Config.hwWith 65535 true).Valid :=
  ⟨by decide, by decide, by decide, by decide⟩
theorem witness_ResetRestoresEveryElement :
    (stateOf { base with inStep := true } [.reset, .tick]).inputs = .reset :: [.tick] := by decide
theorem witness_StepRunsTheDecodedCommand : (stateOf base [.command 0x040000000000#48]).inputs =
    .command 0x040000000000#48 :: [] ∧ decode 0x040000000000#48 = .ok .stop := ⟨by decide, rfl⟩
theorem witness_IllegalWordAnswersErrIllegal : (stateOf base [.command 0#48]).inputs = .command 0#48 :: [] ∧
    wordWellFormed 0#48 = false ∧ (opField 0#48).toNat = 0 ∧ 8 ≤ (opField 0x080000000000#48).toNat ∧
    (selField 0x0301000003E8#48 ≠ 0#8 ∧ opField 0x0301000003E8#48 = 3#8) ∧
    (immField 0x020300000001#48 ≠ 0#32 ∧ opField 0x020300000001#48 = 2#8) := by decide
theorem witness_StepTakesTheNextInput : (stateOf base []).inputs = [] ∧
    step { stateOf base [] with inputs := [.tick] } = .next (tickTransition (stateOf base [])) := ⟨by decide, rfl⟩
/-- Boundary values of each clause of SETPW's statement. -/
theorem witness_SetpwWritesOneEntryOrRefuses :
    (16 ≤ (16#8).toNat ∧ (599#32).toNat < 600 ∧ 2400 ≤ (2400#32).toNat) ∧
    ((15#8).toNat < 16 ∧ 600 ≤ (600#32).toNat ∧ (600#32).toNat < 2400 ∧ (2399#32).toNat < 2400) := by decide
theorem witness_GetpwReturnsTheEntry : 16 ≤ (16#8).toNat ∧ (15#8).toNat < 16 := by decide
theorem witness_GetpwAfterSetpw : (15#8).toNat < 16 := by decide
/-- Boundary delays of each branch: 0; 1 (clamped) and 65535; 65536 and 75535; 75536. -/
theorem witness_ArmProgramsTheFirstMatch :
    (17 = max (0#32).toNat 17 ∧ (stateOf base []).regs.tcnt = (if base.rem = 0#32 then base.tcnt else base.ocrS)) ∧
    (17 = max (1#32).toNat 17 ∧ 17 < 65536 ∧ (1#32) ≠ 0#32) ∧
    (65535 = max (65535#32).toNat 17 ∧ 65535 < 65536 ∧ (65535#32) ≠ 0#32) ∧
    (65536 = max (65536#32).toNat 17 ∧ 75535 = max (75535#32).toNat 17 ∧ 75535 < 75536) ∧
    75536 = max (75536#32).toNat 17 := by decide
theorem witness_StepdoneEndsTheCallback : base.inStep = false ∧
    ({ base with inStep := true, deferred := true }).inStep = true ∧
    ({ base with inStep := true, deferred := true }).deferred = true ∧
    ({ base with inStep := true }).deferred = false := by decide
theorem witness_TstclrReadsAndClearsOneFlag : 2 < (3#8).toNat ∧ (0#8).toNat ≤ 2 ∧ (1#8).toNat ≤ 2 ∧
    (2#8).toNat ≤ 2 := by decide
theorem witness_TstclrTwiceLeavesNoBacklog : (2#8).toNat ≤ 2 := by decide
/-- Each clause of RDREG's statement has its register number; 0x1F is the first reserved one. -/
theorem witness_RdregReturnsTheRegister : 0x1E < (0x1F#8).toNat ∧ (0x1E#8).toNat ≤ 0x1E ∧ (0x0F#8).toNat < 16 ∧
    ∀ k : Fin 15, (BitVec.ofNat 8 (0x10 + k)).toNat ≤ 0x1E ∧ ¬(BitVec.ofNat 8 (0x10 + k)).toNat < 16 := by decide
theorem witness_TickAdvancesTcnt : (stateOf base [.tick]).inputs = .tick :: [] := by decide
theorem witness_TickEventsInOrder : (stateOf base [.tick, .reset]).inputs = .tick :: [.reset] := by decide
theorem witness_SlotTickCountsInsideTheSlot : (stateOf { base with scnt := 1499#16 } [.tick]).inputs = .tick :: [] ∧
    ({ base with scnt := 1499#16 }).scnt + 1#16 ≠ base.period := by decide
theorem witness_SlotBoundaryStartsTheNextSlot : (stateOf { base with scnt := 1500#16 } [.tick]).inputs = .tick :: [] ∧
    ({ base with scnt := 1500#16 }).scnt + 1#16 = base.period ∧
    TableInRange Config.hw { base with scnt := 1500#16 } := by decide

/-- A record with a pending enable and two ticks to its match. -/
abbrev pending : Regs := { base with ocrS := 2#16, rem := 17#32, deferred := true }

theorem witness_CommitEnablesThePendingChannel : (stateOf pending [.tick]).inputs = .tick :: [] ∧
    pending.deferred = true ∧ pending.inStep = false ∧ pending.tcnt + 1#16 ≠ pending.ocrS := by decide

/-- A record one tick before a match on an enabled channel. -/
abbrev armed (rem : BitVec 32) : Regs := { base with ocrS := 1#16, rem := rem, stepEn := true }

theorem witness_RealStepFiresAndHoldsTheChannel : (stateOf (armed 65535#32) [.tick]).inputs = .tick :: [] ∧
    ((armed 65535#32).stepEn = true ∨ ((armed 65535#32).deferred = true ∧ (armed 65535#32).inStep = false)) ∧
    (armed 65535#32).tcnt + 1#16 = (armed 65535#32).ocrS ∧ (armed 65535#32).rem.toNat < 65536 := by decide
/-- One value of `REM` at the edges of each of the three clauses. -/
theorem witness_IntermediateWrapReprogramsTheRest :
    (∀ r ∈ [0, 65535, 65536, 75535, 75536], (armed (BitVec.ofNat 32 (65536 + r))).rem.toNat = 65536 + r) ∧
    (stateOf (armed 65536#32) [.tick]).inputs = .tick :: [] ∧ (armed 65536#32).stepEn = true ∧
    (armed 65536#32).tcnt + 1#16 = (armed 65536#32).ocrS := by decide
theorem witness_DisabledMatchLeavesNoTrace : (stateOf { base with divEn := false } [.tick]).inputs = .tick :: [] ∧
    ({ base with divEn := false }).stepEn = false ∧ ({ base with divEn := false }).deferred = false ∧
    ({ base with divEn := false }).divEn = false := by decide
/-- Both channels enabled and neither matching: the step channel 65535 TICKs from its match, the divider 2. -/
theorem witness_TickWithoutAMatchLeavesTheChannels :
    (stateOf { armed 17#32 with tcnt := 1#16, ocrD := 3#16 } [.tick]).inputs = .tick :: [] ∧
    ({ armed 17#32 with tcnt := 1#16, ocrD := 3#16 }).stepEn = true ∧ base.divEn = true ∧
    (1#16 : Ticks) + 1#16 ≠ (armed 17#32).ocrS ∧ (1#16 : Ticks) + 1#16 ≠ 3#16 := by decide
theorem witness_DividerMatchCascades :
    (stateOf { base with tcnt := 999#16, cntMs := 9#8 } [.tick]).inputs = .tick :: [] ∧
    ({ base with tcnt := 999#16, cntMs := 9#8 }).divEn = true ∧
    ({ base with tcnt := 999#16, cntMs := 9#8 }).tcnt + 1#16 = base.ocrD ∧
    DividerCountersLow Config.hw { base with tcnt := 999#16, cntMs := 9#8 } := by decide
theorem witness_ErrorsChangeNothing :
    step (stateOf base [.command 0#48]) = .next (illegalWord (stateOf base [])) ∧
    (illegalWord (stateOf base [])).response = some 0x0100000000#40 ∧ statusField 0x0100000000#40 ≠ 0x00#8 :=
  ⟨rfl, by decide, by decide⟩
theorem witness_EveryCommandAnswersOnce : (stateOf base [.command 0#48]).inputs = .command 0#48 :: [] := by decide
theorem witness_CommandsWriteOnlyTheirElements : (∀ ch v, Instr.stop ≠ .setpw ch v) ∧ (∀ d, Instr.getpw 0#8 ≠ .arm d) ∧
    Instr.getpw 0#8 ≠ .stop ∧ Instr.getpw 0#8 ≠ .stepdone ∧ (∀ f, Instr.stop ≠ .tstclr f) := by simp
theorem witness_OnlyCommitAndStepdoneEnable :
    step (stateOf pending [.tick]) = .next (tickTransition (stateOf pending [])) ∧ pending.stepEn = false ∧
    (tickTransition (stateOf pending [])).regs.stepEn = true := ⟨rfl, by decide, by decide⟩
theorem witness_ReadsHaveNoSideEffect : (∃ ch, Instr.getpw 3#8 = .getpw ch) ∧ (∃ r, Instr.rdreg 0x1D#8 = .rdreg r) :=
  ⟨⟨3#8, rfl⟩, ⟨0x1D#8, rfl⟩⟩
/-- A record of each class of R35. -/
theorem witness_TickMovesSchedulerClasses : (stateOf pending [.tick]).inputs = .tick :: [] ∧
    schedClass base = .idle ∧ schedClass pending = .armedSingle ∧ schedClass (armed 75536#32) = .armedMulti ∧
    schedClass { base with inStep := true } = .fired := by decide
theorem witness_StepKeepsTheInvariants : Good (stateOf (armed 75536#32) [.tick]) ∧
    step (stateOf (armed 75536#32) [.tick]) = .next (tickTransition (stateOf (armed 75536#32) [])) := ⟨by decide, rfl⟩
theorem witness_EveryValidConfigurationStaysGood : vec.Valid ∧ vec.minDelay < 2 ^ 32 := by decide
theorem witness_BoundariesGoRoundRobin : Input.reset ∉ (stateOf base [.tick, .command 0#48]).inputs ∧
    2 ≤ (stateOf base [.tick, .command 0#48]).inputs.length := by decide
theorem witness_SlotKeepsItsShapeUnderCommands :
    (stateOf base [.tick, .command 0x0100000007D0#48, .tick]).inputs = [.tick, .command 0x0100000007D0#48] ++ [.tick] ∧
    Input.reset ∉ [Input.tick, .command 0x0100000007D0#48] ∧ base.scnt = 0#16 ∧
    base.period.toNat = base.pulse.toNat + 1 ∧
    tickCount [Input.tick, .command 0x0100000007D0#48] ≤ base.pulse.toNat := by decide
/-- The second clause, on a slot of one tick's pulse. -/
theorem witness_SlotKeepsItsShapeUnderCommands_end :
    ({ base with pulse := 1#16, period := 2#16 }).period.toNat =
      ({ base with pulse := 1#16, period := 2#16 }).pulse.toNat + 1 ∧
    tickCount [Input.tick, .command 0#48] = ({ base with pulse := 1#16, period := 2#16 }).pulse.toNat ∧
    [Input.tick].head? = some .tick := by decide
/-- A TICK, a refused SETPW and an ARM leave the table as it is. -/
theorem witness_FrameLengthIsTheSumOfSlots :
    Good (stateOf base [.tick, .command 0x011000000384#48, .command 0x0300000003E8#48]) ∧
    (stateOf base [.tick, .command 0x011000000384#48, .command 0x0300000003E8#48]).inputs =
      [.tick, .command 0x011000000384#48, .command 0x0300000003E8#48] ++ [] ∧
    Input.reset ∉ [Input.tick, .command 0x011000000384#48, .command 0x0300000003E8#48] ∧
    (∀ m t, m ≤ [Input.tick, .command 0x011000000384#48, .command 0x0300000003E8#48].length →
      Host.Core.run Sys2Proof.core m
        (stateOf base [.tick, .command 0x011000000384#48, .command 0x0300000003E8#48]) = .next t →
      t.regs.pw = base.pw) ∧
    base.scnt = 0#16 ∧ base.pulse = readPw base base.idx.toFin ∧ frameTicks base = 24016 :=
  ⟨by decide, rfl, by decide, fun m t hm h => by
    match m, hm with
    | 0, _ => cases h; rfl
    | 1, _ => cases h; rfl
    | 2, _ => cases h; rfl
    | 3, _ => cases h; rfl, rfl, by decide, by decide⟩
theorem witness_WriteReachesItsSlotWithinAFrame :
    Good (stateOf { base with scnt := 1500#16 } (List.replicate 38400 .tick)) ∧
    (stateOf { base with scnt := 1500#16 } (List.replicate 38400 .tick)).inputs = List.replicate 38400 .tick :=
  ⟨by decide, rfl⟩
/-- The inputs after an ARM: TICKs and commands that are not ARM, STOP or reset, a STEPDONE among them. -/
abbrev callback : List Input := [.tick, .command (encode (.rdreg 0x16#8))] ++ .command (encode .stepdone) :: [.tick]

/-- The first disjunct with no callback, the second with one; the commit at the edge of time of each branch. -/
theorem witness_NewMoveFiresAtItsDelay :
    (stateOf base (.command (encode (.arm 1000#32)) :: callback)).inputs =
      .command (encode (.arm 1000#32)) :: (callback ++ []) ∧
    (1000#32) ≠ 0#32 ∧ base.rem = 0#32 ∧ (∀ x ∈ callback, disturbsStep x = false) ∧ base.inStep = false ∧
    ({ base with inStep := true }).inStep = true ∧
    tickCount [.tick, .command (encode (.rdreg 0x16#8))] < firstMatchTicks Config.hw (max (1000#32).toNat 17) ∧
    16 < firstMatchTicks Config.hw (max (1#32).toNat 17) ∧
    65534 < firstMatchTicks Config.hw (max (65535#32).toNat 17) ∧
    55535 < firstMatchTicks Config.hw (max (75535#32).toNat 17) ∧
    65535 < firstMatchTicks Config.hw (max (75536#32).toNat 17) := by decide

/-- A record `a` ticks after a step at `OCR_S = 100`, the move open. -/
abbrev chained (a : Nat) : Regs :=
  { base with tcnt := BitVec.ofNat 16 (100 + a), ocrS := 100#16, rem := 17#32 }

/-- The first and the last `a` in time, for a delay of each branch, and a callback that ends in time. -/
theorem witness_ChainedStepKeepsTheCadence :
    (stateOf (chained 998) (.command (encode (.arm 1000#32)) :: callback)).inputs =
      .command (encode (.arm 1000#32)) :: (callback ++ []) ∧ (chained 998).rem ≠ 0#32 ∧
    (∀ x ∈ callback, disturbsStep x = false) ∧ (chained 999).inStep = false ∧
    (∀ a ∈ [0, 999], (chained a).tcnt = (chained a).ocrS + BitVec.ofNat 16 a ∧ a < firstMatchTicks Config.hw 1000) ∧
    (∀ a ∈ [0, 55535], a < firstMatchTicks Config.hw 65536) ∧
    (∀ a ∈ [0, 65535], a < firstMatchTicks Config.hw 75536) ∧
    998 + tickCount [.tick, .command (encode (.rdreg 0x16#8))] < firstMatchTicks Config.hw 1000 := by decide
/-- The first commit that is late and the edges of the second wrap; then a callback that ends one TICK too late. -/
theorem witness_LateChainedStepFiresWholeWrapsLate :
    (stateOf (chained 2000) (.command (encode (.arm 1000#32)) :: callback)).inputs =
      .command (encode (.arm 1000#32)) :: (callback ++ []) ∧ (chained 2000).rem ≠ 0#32 ∧ (chained 2000).inStep = false ∧
    (∀ x ∈ callback, disturbsStep x = false) ∧
    (∀ a ∈ [1000, 2000, 66535, 66536], (chained a).tcnt = (chained a).ocrS + BitVec.ofNat 16 a ∧
      firstMatchTicks Config.hw (max (1000#32).toNat 17) ≤ a) ∧
    65536 * ((66535 - firstMatchTicks Config.hw (max (1000#32).toNat 17)) / 65536 + 1) = 65536 ∧
    65536 * ((66536 - firstMatchTicks Config.hw (max (1000#32).toNat 17)) / 65536 + 1) = 131072 ∧
    ({ chained 999 with inStep := true }).inStep = true ∧
    Input.command (encode .stepdone) ∉ [Input.tick, .command (encode (.rdreg 0x16#8))] ∧
    firstMatchTicks Config.hw (max (1000#32).toNat 17) ≤ 999 + tickCount [.tick, .command (encode (.rdreg 0x16#8))] := by
  decide
theorem witness_StopSilencesTheStepChannel :
    (stateOf (armed 17#32) [.command (encode .stop), .command (encode .stepdone), .tick]).inputs =
      .command (encode .stop) :: [.command (encode .stepdone), .tick] ∧
    2 ≤ [Input.command (encode .stepdone), .tick].length ∧
    ∀ x ∈ [Input.command (encode .stepdone), .tick].take 2, requestsStep x = false := by decide
theorem witness_CancelSilencesTheStepChannel :
    (stateOf base [.command (encode (.arm 0#32)), .tick]).inputs = .command (encode (.arm 0#32)) :: [.tick] ∧
    1 ≤ [Input.tick].length ∧ (∀ x ∈ [Input.tick].take 1, requestsStep x = false) ∧ base.rem = 0#32 ∧ base.stepEn = false ∧
    base.deferred = false ∧ base.divEn = true := by decide
theorem witness_NoStepDuringTheCallback : ({ base with inStep := true }).inStep = true ∧
    ({ base with inStep := true }).stepEn = false ∧
    2 ≤ [Input.command (encode (.arm 1000#32)), .tick].length ∧
    ∀ x ∈ [Input.command (encode (.arm 1000#32)), .tick].take 2,
      x ≠ .reset ∧ x ≠ .command (encode .stepdone) := by decide

/-- A record whose next divider event is `k` TICKs away. -/
abbrev dividing (k : Nat) : Regs := { base with tcnt := 65535#16, ocrD := 65535#16 + BitVec.ofNat 16 k }

/-- `k = 1` and `k = DIV_PERIOD`, the edges of the range, whatever `DIV_PERIOD` is. -/
theorem witness_DividerDistanceCountsDown :
    (∀ k : Nat, (stateOf (dividing k) [.tick]).inputs = .tick :: [] ∧
      (stateOf (dividing k) [.command 0x040000000000#48]).inputs = .command 0x040000000000#48 :: [] ∧
      (dividing k).divEn = true ∧ (dividing k).ocrD = (dividing k).tcnt + BitVec.ofNat 16 k) ∧
    1 ≤ 1 ∧ 1 ≤ Config.hw.divPeriod :=
  ⟨fun _ => ⟨rfl, rfl, rfl, rfl⟩, by decide, Nat.succ_pos _⟩
theorem witness_DividerRunsOncePerPeriod :
    (stateOf (dividing 1) [.command 0x0300000003E8#48, .tick]).inputs =
      [.command 0x0300000003E8#48, .tick] ++ [] ∧ Input.reset ∉ [Input.command 0x0300000003E8#48, .tick] ∧
    (∀ m t, m ≤ [Input.command 0x0300000003E8#48, .tick].length →
      Host.Core.run Sys2Proof.core m (stateOf (dividing 1) [.command 0x0300000003E8#48, .tick]) = .next t →
      t.regs.divEn = true) ∧
    1 ≤ Config.hw.divPeriod ∧ (dividing 1).ocrD = (dividing 1).tcnt + BitVec.ofNat 16 1 :=
  ⟨rfl, by decide, fun m t hm h => by
    match m, hm with
    | 0, _ => cases h; rfl
    | 1, _ => cases h; rfl
    | 2, _ => cases h; exact (tick_divEn _ _).trans rfl,
    Nat.succ_pos _, rfl⟩

/-- A run of TICKs alone from reset never asks for a step. -/
theorem ticks_alone_request_nothing (n : Nat) :
    (runOf Config.hw (fun _ => .tick) n).regs.stepEn = false ∧
    (runOf Config.hw (fun _ => .tick) n).regs.deferred = false ∧
    Event.stepFire ∉ (runOf Config.hw (fun _ => .tick) n).events := by
  induction n with
  | zero => exact ⟨rfl, rfl, by simp [runOf, State.resetAt]⟩
  | succ n ih =>
    obtain ⟨hs, hd, -⟩ := ih
    have e : afterStep Config.hw (runOf Config.hw (fun _ => .tick) n).regs =
        (countTick (runOf Config.hw (fun _ => .tick) n).regs, []) := by
      simp [afterStep, commitPart, stepPart, hs, hd]
    refine ⟨?_, ?_, ?_⟩
    · show (tick Config.hw _).1.stepEn = false
      rw [tick_stepEn, e]; exact hs
    · show (tick Config.hw _).1.deferred = false
      rw [tick_deferred, e]; exact hd
    · show Event.stepFire ∉ (tick Config.hw _).2
      rw [stepFire_mem_tick, e]; simp

theorem witness_FairRunsKeepReachingBoundaries :
    FairRun Config.hw (fun _ => .tick) ∧ ∀ n : Nat, (fun _ : Nat => Input.tick) n ≠ .reset :=
  ⟨⟨fun n => ⟨n, Nat.le_refl n, rfl⟩, fun n h => absurd h (ticks_alone_request_nothing (n + 1)).2.2⟩,
    fun _ => by simp⟩

end Sys2Proof.Tests
end

section
/-! PROOFS. The statements of spec/00_scope.md: the configuration's constraints (R7, R9), the configured step (D29), and
the invariants of R45 in every run of every valid configuration.

R45's items fall into four groups that the transitions touch separately: the table (item 1), the slot registers (items
2 and 3), the scheduler (items 4 to 7) and the divider counters (item 8). Each group has one lemma per operation that
writes it, and one that says which elements it depends on. -/

namespace Sys2Proof.Proofs

open Sys2Proof.Machine Sys2Proof.Safety

/-! ### The configured step -/

theorem stepAt_nil (c : Config) (s : State) (h : s.inputs = []) : stepAt c s = endTick (tick c s.regs) s := by
  unfold stepAt; rw [h]

theorem stepAt_tick (c : Config) (s : State) (rest : List Input) (h : s.inputs = .tick :: rest) :
    stepAt c s = endTick (tick c s.regs) { s with inputs := rest } := by
  unfold stepAt; rw [h]

theorem stepAt_command (c : Config) (s : State) (w : CommandWord) (rest : List Input)
    (h : s.inputs = .command w :: rest) :
    stepAt c s = runCommand (commandWordAt c w) { s with inputs := rest } := by
  unfold stepAt; rw [h]

theorem stepAt_reset (c : Config) (s : State) (rest : List Input) (h : s.inputs = .reset :: rest) :
    stepAt c s = { regs := Regs.reset c, inputs := rest, response := none, events := [] } := by
  unfold stepAt; rw [h]

theorem commandWordAt_of_decode_ok (c : Config) {w : CommandWord} {i : Instr} (h : decode w = .ok i) :
    commandWordAt c w = commandAt c i := by
  unfold commandWordAt; rw [h]

theorem commandWordAt_of_decode_error (c : Config) {w : CommandWord} {e : DecodeError} (h : decode w = .error e) :
    commandWordAt c w = fun _ => raise .errIllegal := by
  unfold commandWordAt; rw [h]

/-- A command word of this hardware is one transition over its record function (R65, R84). -/
theorem runWord_eq_runCommand (w : CommandWord) (s : State) :
    runWord w s = .next (runCommand (commandWordAt Config.hw w) s) := by
  rcases runWord_cases w s with ⟨i, hd, hr⟩ | ⟨e, hd, hr⟩
  · rw [hr, exec_eq_runCommand, commandWordAt_of_decode_ok _ hd]
  · rw [hr, commandWordAt_of_decode_error _ hd]; rfl

/-- What a command can do to the state record, a word that is no command included (R13, R65, R84). -/
theorem runCommand_commandWordAt_regs (c : Config) (w : CommandWord) (s : State) :
    (runCommand (commandWordAt c w) s).regs = s.regs ∨
    ∃ i data, commandAt c i s.regs = .ok ((runCommand (commandWordAt c w) s).regs, data) := by
  rcases runCommand_cases (commandWordAt c w) s with ⟨r, data, hok, hrun⟩ | ⟨e, _, hrun⟩
  · cases hd : decode w with
    | ok i =>
      rw [commandWordAt_of_decode_ok c hd] at hok
      exact .inr ⟨i, data, by rw [hrun, hok]⟩
    | error e =>
      rw [commandWordAt_of_decode_error c hd] at hok
      cases hok
  · exact .inl (by rw [hrun])

/-- What a configured step can do to the state record: a TICK, a command, nothing (an error) or a reset. -/
theorem stepAt_regs_cases (c : Config) (s : State) :
    (stepAt c s).regs = (tick c s.regs).1 ∨
    (∃ i data, commandAt c i s.regs = .ok ((stepAt c s).regs, data)) ∨
    (stepAt c s).regs = s.regs ∨
    (stepAt c s).regs = Regs.reset c := by
  match h : s.inputs with
  | [] => exact .inl (by rw [stepAt_nil c s h]; rfl)
  | .tick :: rest => exact .inl (by rw [stepAt_tick c s rest h]; rfl)
  | .command w :: rest =>
    rw [stepAt_command c s w rest h]
    rcases runCommand_commandWordAt_regs c w { s with inputs := rest } with hsame | hcmd
    · exact .inr (.inr (.inl hsame))
    · exact .inr (.inl hcmd)
  | .reset :: rest => exact .inr (.inr (.inr (by rw [stepAt_reset c s rest h])))

/-- Settles O16, input by input. -/
theorem stepIsTheConfiguredStep : Obligations.StepIsTheConfiguredStep := by
  intro s
  match h : s.inputs with
  | [] => rw [step_nil s h, stepAt_nil _ s h]; rfl
  | .tick :: rest => rw [step_tick s rest h, stepAt_tick _ s rest h]; rfl
  | .command w :: rest => rw [step_command s w rest h, stepAt_command _ s w rest h, runWord_eq_runCommand]
  | .reset :: rest => rw [step_reset s rest h, stepAt_reset _ s rest h]; rfl

/-! ### Configuration time -/

/-- `DIV_PERIOD` of this hardware is in R9's range, whatever the OPEN parameter is. -/
theorem hw_divPeriod_range : 1 ≤ Config.hw.divPeriod ∧ Config.hw.divPeriod ≤ 65535 :=
  ⟨Nat.le_add_left 1 _, Config.openDivPeriodLessOne.isLt⟩

/-- R9 at this hardware: the fixed parameters by computation, the OPEN one by its range. -/
theorem hw_valid : Config.hw.Valid :=
  ⟨by decide, by decide, by decide, by decide, by decide, by decide, by decide, by decide, hw_divPeriod_range⟩

/-- Settles O8: the constraints by `hw_valid`, the fixed values by computation. -/
theorem hardwareConfigurationIsValid : Obligations.HardwareConfigurationIsValid :=
  ⟨hw_valid, rfl, rfl, rfl, rfl, rfl, rfl, rfl, rfl⟩

theorem powerOn_of_valid {c : Config} (hc : c.Valid) : powerOn c = .next (State.resetAt c) := if_pos hc

theorem powerOn_of_not_valid {c : Config} (hc : ¬c.Valid) : powerOn c = .refused .badConfiguration := if_neg hc

/-! ### The invariants in four groups -/

/-- Items 2 and 3 of R45: the registers of the slot in progress. -/
structure SlotInv (c : Config) (r : Regs) : Prop where
  regsAgree : SlotRegsAgree c r
  counterInSlot : SlotCounterInSlot r

/-- What item 7 of R45 asks of the delay still to run while a step is enabled or requested. -/
abbrev DelayHasSlack (c : Config) (rem : BitVec 32) : Prop :=
  min c.minDelay c.early ≤ rem.toNat ∧ (2 ^ 16 ≤ rem.toNat → 2 ^ 16 + c.early ≤ rem.toNat)

/-- Items 4, 5 and 7 of R45: the scheduler. Item 6 follows from item 7 (`SchedInv.noMoveNoEnable`). -/
structure SchedInv (c : Config) (r : Regs) : Prop where
  inStepHolds : InStepHoldsChannel r
  exclusive : EnablesExclusive r
  slack : r.stepEn = true ∨ r.deferred = true → DelayHasSlack c r.rem

/-- Item 6 of R45 is a consequence of item 7, since the slack of an armed delay is not 0 in a valid configuration. -/
theorem SchedInv.noMoveNoEnable {c : Config} {r : Regs} (hc : c.Valid) (h : SchedInv c r) : NoMoveNoEnable r := by
  intro hrem
  have hidle : ¬(r.stepEn = true ∨ r.deferred = true) := fun hen => by
    obtain ⟨hmin, _⟩ := h.slack hen
    obtain ⟨-, -, -, hdelay, hearly, -⟩ := hc
    have hzero : r.rem.toNat = 0 := by rw [hrem]; rfl
    omega
  simpa using hidle

theorem inv_iff {c : Config} (hc : c.Valid) (r : Regs) :
    Inv c r ↔ TableInRange c r ∧ SlotInv c r ∧ SchedInv c r ∧ DividerCountersLow c r := by
  constructor
  · rintro ⟨htab, hagree, hin, hhold, hexcl, -, hslack, hdiv⟩
    exact ⟨htab, ⟨hagree, hin⟩, ⟨hhold, hexcl, hslack⟩, hdiv⟩
  · rintro ⟨htab, hslot, hsched, hdiv⟩
    exact ⟨htab, hslot.regsAgree, hslot.counterInSlot, hsched.inStepHolds, hsched.exclusive,
      hsched.noMoveNoEnable hc, hsched.slack, hdiv⟩

/-! Each group depends on its own elements alone. -/

section Frame

variable {c : Config} {r r' : Regs}

theorem TableInRange.of_eq (h : TableInRange c r) (hpw : r'.pw = r.pw) : TableInRange c r' := by
  simpa only [TableInRange, readPw, hpw] using h

theorem SlotInv.of_eq (h : SlotInv c r) (hperiod : r'.period = r.period) (hpulse : r'.pulse = r.pulse)
    (hscnt : r'.scnt = r.scnt) : SlotInv c r' := by
  obtain ⟨hagree, hin⟩ := h
  constructor
  · rw [SlotRegsAgree, hperiod, hpulse]; exact hagree
  · rw [SlotCounterInSlot, hperiod, hscnt]; exact hin

theorem SchedInv.of_eq (h : SchedInv c r) (hrem : r'.rem = r.rem) (hen : r'.stepEn = r.stepEn)
    (hdef : r'.deferred = r.deferred) (hin : r'.inStep = r.inStep) : SchedInv c r' := by
  obtain ⟨hhold, hexcl, hslack⟩ := h
  constructor
  · rw [InStepHoldsChannel, hin, hen]; exact hhold
  · rw [EnablesExclusive, hen, hdef]; exact hexcl
  · rw [hen, hdef, hrem]; exact hslack

theorem DividerCountersLow.of_eq (h : DividerCountersLow c r) (hms : r'.cntMs = r.cntMs)
    (h10 : r'.cnt10ms = r.cnt10ms) (h250 : r'.cnt250ms = r.cnt250ms) : DividerCountersLow c r' := by
  rw [DividerCountersLow, hms, h10, h250]; exact h

/-- A record with nothing enabled and nothing requested meets the scheduler's items. -/
theorem SchedInv.of_disabled (hen : r.stepEn = false) (hdef : r.deferred = false) : SchedInv c r :=
  ⟨fun _ => hen, by simp [EnablesExclusive, hen], by simp [hen, hdef]⟩

end Frame

/-! ### Reset -/

theorem readPw_reset (c : Config) (i : Fin 16) : readPw (Regs.reset c) i = BitVec.ofNat 16 c.pwReset := by
  simp [readPw, Regs.reset]

theorem reset_tableInRange {c : Config} (hc : c.Valid) : TableInRange c (Regs.reset c) := by
  intro i
  obtain ⟨-, hpulse, hreset, -⟩ := hc
  rw [readPw_reset, BitVec.toNat_ofNat]
  omega

theorem reset_slotInv {c : Config} (hc : c.Valid) : SlotInv c (Regs.reset c) := by
  obtain ⟨-, hpulse, hreset, -⟩ := hc
  have hper : (Regs.reset c).period.toNat = c.pwReset + 1 := Nat.mod_eq_of_lt (by omega)
  have hpul : (Regs.reset c).pulse.toNat = c.pwReset := Nat.mod_eq_of_lt (by omega)
  have hcnt : (Regs.reset c).scnt.toNat = 0 := rfl
  constructor
  · rw [SlotRegsAgree, hper, hpul]; omega
  · rw [SlotCounterInSlot, hper, hcnt]; omega

theorem reset_dividerCountersLow {c : Config} (hc : c.Valid) : DividerCountersLow c (Regs.reset c) := by
  obtain ⟨-, -, -, -, -, ht1, ht2, ht3, -⟩ := hc
  exact ⟨ht1.1, ht2.1, ht3.1⟩

/-- R45 holds right after reset, at every valid configuration. -/
theorem reset_inv {c : Config} (hc : c.Valid) : Inv c (Regs.reset c) :=
  (inv_iff hc _).2
    ⟨reset_tableInRange hc, reset_slotInv hc, SchedInv.of_disabled rfl rfl, reset_dividerCountersLow hc⟩

/-- Settles O9, by the two outcomes of `powerOn` and the invariants at reset (`reset_inv`). -/
theorem powerOnRefusesBadConfigurations : Obligations.PowerOnRefusesBadConfigurations := fun _ =>
  ⟨powerOn_of_not_valid, fun hc => ⟨_, powerOn_of_valid hc, reset_inv hc⟩⟩

/-! ### What each command can do to the record -/

section CommandResults

variable {c : Config} {r r' : Regs} {data : BitVec 32}

theorem setpw_ok {ch : BitVec 8} {v : BitVec 32} (h : setpw c ch v r = .ok (r', data)) :
    ∃ i w, channelOf ch = some i ∧ pulseOf c v = some w ∧ r' = writePw r i w := by
  unfold setpw at h
  split at h
  · cases h
  · split at h
    · cases h
    · cases h; exact ⟨_, _, ‹_›, ‹_›, rfl⟩

theorem getpw_ok {ch : BitVec 8} (h : getpw ch r = .ok (r', data)) : r' = r := by
  unfold getpw at h
  split at h <;> cases h
  rfl

theorem rdreg_ok {sel : BitVec 8} (h : rdreg sel r = .ok (r', data)) : r' = r := by
  unfold rdreg at h
  split at h <;> cases h
  rfl

theorem tstclr_ok {f : BitVec 8} (h : tstclr f r = .ok (r', data)) :
    ∃ flag, flagOf f = some flag ∧ r' = clearFlag flag r := by
  unfold tstclr at h
  split at h
  · cases h
  · cases h; exact ⟨_, ‹_›, rfl⟩

theorem stop_ok (h : stop c r = .ok (r', data)) :
    r' = { r with
      stepEn := false
      deferred := false
      divEn := if c.stopDisablesDivider then false else r.divEn } := by
  cases h; rfl

theorem stepdone_ok (h : stepdone r = .ok (r', data)) : r.inStep = true ∧ r' = stepReturn r := by
  unfold stepdone at h
  split at h
  · cases h; exact ⟨‹_›, rfl⟩
  · cases h

/-- ARM 0 closes the move; any other ARM programs its clamped delay and requests the enable (R130). -/
theorem arm_ok {d : BitVec 32} (h : arm c d r = .ok (r', data)) :
    (d = 0#32 ∧ r' = { r with divEn := true, stepEn := false, rem := 0#32, deferred := false }) ∨
    (d ≠ 0#32 ∧ r' = { programSegment c (armBase r) (delayOf c d) { r with divEn := true, stepEn := false } with
      deferred := true }) := by
  unfold arm at h
  dsimp only at h
  split at h
  · cases h; exact .inl ⟨‹_›, rfl⟩
  · cases h; exact .inr ⟨‹_›, rfl⟩

end CommandResults

/-! ### The table -/

/-- SETPW's value passes the range check on 32 bits and so loses nothing on 16 (R85, R110). -/
theorem pulseOf_range {c : Config} (hc : c.Valid) {v : BitVec 32} {w : Ticks} (h : pulseOf c v = some w) :
    c.minPulse ≤ w.toNat ∧ w.toNat < c.maxPulseExcl := by
  obtain ⟨hlo, hhi, rfl⟩ := (pulseOf_eq_some c v w).1 h
  obtain ⟨-, hpulse, -⟩ := hc
  rw [BitVec.toNat_setWidth]
  omega

theorem writePw_tableInRange {c : Config} {r : Regs} {i : Fin 16} {w : Ticks} (h : TableInRange c r)
    (hw : c.minPulse ≤ w.toNat ∧ w.toNat < c.maxPulseExcl) : TableInRange c (writePw r i w) := by
  intro j
  by_cases hij : i = j
  · rw [← hij, readPw_writePw_same]; exact hw
  · rw [readPw_writePw_other r i j w hij]; exact h j

/-! ### The slot -/

/-- `PULSE + 1` fits 16 bits, since a pulse width is below `MAX_PULSE_EXCL` and that is at most 65535 (R9). -/
theorem pulse_succ_toNat {c : Config} (hc : c.Valid) {v : Ticks} (hv : v.toNat < c.maxPulseExcl) :
    (v + 1#16).toNat = v.toNat + 1 := by
  obtain ⟨-, hpulse, -⟩ := hc
  rw [BitVec.toNat_add]
  exact Nat.mod_eq_of_lt (by change v.toNat + 1 < 2 ^ 16; omega)

/-- The slot part either counts one tick inside the slot or starts a slot with the next entry's width (R112, R113). -/
theorem slotTick_slotInv {c : Config} (hc : c.Valid) {r : Regs} (htab : TableInRange c r) (h : SlotInv c r) :
    SlotInv c (slotTick r).1 := by
  obtain ⟨hagree, hin⟩ := h
  rcases slotTick_cases r with ⟨hne, hs⟩ | ⟨-, hs⟩ <;> rw [hs]
  · have hcount : (r.scnt + 1#16).toNat = r.scnt.toNat + 1 := by
      rw [BitVec.toNat_add]
      exact Nat.mod_eq_of_lt (by change r.scnt.toNat + 1 < 2 ^ 16; have := r.period.isLt; omega)
    have hlt : r.scnt.toNat + 1 ≠ r.period.toNat := fun he => hne (BitVec.eq_of_toNat_eq (by rw [hcount, he]))
    refine ⟨hagree, ?_⟩
    change (r.scnt + 1#16).toNat < r.period.toNat
    omega
  · have hv := htab (r.idx + 1#4).toFin
    have hper := pulse_succ_toNat hc hv.2
    exact ⟨⟨hper, hv⟩, by rw [SlotCounterInSlot, slotBoundary_scnt, slotBoundary_period]; exact hper ▸ Nat.succ_pos _⟩

/-! ### The scheduler -/

/-- Each branch of the split leaves a `REM` with the slack item 7 asks for: below 2^16 it is the delay itself, and from
2^16 on the early-fire branch has added `EARLY` and the wrap branch found it there already (R130, R135). -/
theorem programSegment_slack {c : Config} (hc : c.Valid) (base : Ticks) {n : Nat} (r : Regs)
    (hmin : min c.minDelay c.early ≤ n) (hn : n < 2 ^ 32) : DelayHasSlack c (programSegment c base n r).rem := by
  obtain ⟨-, -, -, -, hearly, -⟩ := hc
  unfold DelayHasSlack
  rcases Nat.lt_or_ge n (2 ^ 16) with hdirect | hlong
  · rw [programSegment_direct c base n r hdirect, BitVec.toNat_ofNat, Nat.mod_eq_of_lt hn]
    omega
  rcases Nat.lt_or_ge n (2 ^ 16 + c.early) with hshort | hwrap
  · rw [programSegment_early c base n r hlong hshort, BitVec.toNat_ofNat, Nat.mod_eq_of_lt (by omega)]
    omega
  · rw [programSegment_wrap c base n r hwrap, BitVec.toNat_ofNat, Nat.mod_eq_of_lt hn]
    omega

theorem arm_schedInv {c : Config} (hc : c.Valid) (hdelay : c.minDelay < 2 ^ 32) {d : BitVec 32} {r r' : Regs}
    {data : BitVec 32} (harm : arm c d r = .ok (r', data)) : SchedInv c r' := by
  rcases arm_ok harm with ⟨-, rfl⟩ | ⟨-, rfl⟩
  · exact SchedInv.of_disabled rfl rfl
  · have hfits : delayOf c d < 2 ^ 32 := max_lt d.isLt hdelay
    have hclamped : min c.minDelay c.early ≤ delayOf c d := le_trans (min_le_left ..) (le_max_right ..)
    exact ⟨fun _ => by simp, by simp [EnablesExclusive], fun _ => programSegment_slack hc _ _ hclamped hfits⟩

theorem stepReturn_schedInv {c : Config} {r : Regs} (h : SchedInv c r) : SchedInv c (stepReturn r) := by
  refine ⟨by simp [InStepHoldsChannel], by simp [EnablesExclusive], fun hen => ?_⟩
  rw [stepReturn_rem]
  exact h.slack (by simpa [or_comm] using hen)

theorem commitPart_schedInv {c : Config} {r : Regs} (h : SchedInv c r) : SchedInv c (commitPart r) := by
  rcases commitPart_cases r with ⟨hdef, hin, hs⟩ | ⟨-, hs⟩ <;> rw [hs]
  · exact ⟨by simp [InStepHoldsChannel, hin], by simp [EnablesExclusive], fun _ => h.slack (.inr hdef)⟩
  · exact h

theorem intermediateWrap_regs (c : Config) (r : Regs) :
    (intermediateWrap c r).1 = programSegment c r.ocrS (r.rem.toNat - 2 ^ 16) r := by
  rw [intermediateWrap]

/-- A wrap takes 2^16 from a `REM` with slack, so at least `EARLY` is left to run (R135). -/
theorem intermediateWrap_schedInv {c : Config} (hc : c.Valid) {r : Regs} (h : SchedInv c r) (hen : r.stepEn = true)
    (hrem : 2 ^ 16 ≤ r.rem.toNat) : SchedInv c (intermediateWrap c r).1 := by
  obtain ⟨-, hlong⟩ := h.slack (.inl hen)
  have hleft : min c.minDelay c.early ≤ r.rem.toNat - 2 ^ 16 := by have := hlong hrem; omega
  have hfits : r.rem.toNat - 2 ^ 16 < 2 ^ 32 := by have := r.rem.isLt; omega
  rw [intermediateWrap_regs]
  refine ⟨?_, ?_, fun _ => programSegment_slack hc r.ocrS r hleft hfits⟩
  · rw [InStepHoldsChannel, programSegment_inStep, programSegment_stepEn]; exact h.inStepHolds
  · rw [EnablesExclusive, programSegment_stepEn, programSegment_deferred]; exact h.exclusive

theorem stepPart_schedInv {c : Config} (hc : c.Valid) {r : Regs} (h : SchedInv c r) :
    SchedInv c (stepPart c r).1 := by
  rcases stepPart_cases c r with ⟨-, hs⟩ | ⟨-, -, -, hs⟩ | ⟨hen, -, hrem, hs⟩ <;> rw [hs]
  · exact h
  · exact SchedInv.of_disabled rfl rfl
  · exact intermediateWrap_schedInv hc h hen hrem

/-! ### The divider -/

theorem countStage_lt {cnt : BitVec 8} {threshold : Nat} (h : cnt.toNat < threshold) :
    (countStage cnt threshold).1.toNat < threshold := by
  rcases countStage_spec cnt threshold h with ⟨-, hs⟩ | ⟨hlt, hs⟩ <;> rw [hs]
  · exact Nat.zero_lt_of_lt h
  · rw [BitVec.toNat_add]
    exact lt_of_le_of_lt (Nat.mod_le _ _) hlt

theorem divStageMs_dividerCountersLow {c : Config} {r : Regs} (h : DividerCountersLow c r) :
    DividerCountersLow c (divStageMs c r) := by
  obtain ⟨hms, h10, h250⟩ := h
  have hms' := countStage_lt hms
  have h10' := countStage_lt h10
  have h250' := countStage_lt h250
  unfold divStageMs divStage10 divStage250
  dsimp only
  split
  · split
    · exact ⟨hms', h10', h250'⟩
    · exact ⟨hms', h10', h250⟩
  · exact ⟨hms', h10, h250⟩

theorem divPart_dividerCountersLow {c : Config} {r : Regs} (h : DividerCountersLow c r) :
    DividerCountersLow c (divPart c r).1 := by
  rcases divPart_cases c r with ⟨-, hs⟩ | ⟨-, -, hs⟩ <;> rw [hs]
  · exact h
  · exact divStageMs_dividerCountersLow h

/-! ### Every transition keeps the invariants -/

theorem tick_inv {c : Config} (hc : c.Valid) {r : Regs} (h : Inv c r) : Inv c (tick c r).1 := by
  obtain ⟨htab, hslot, hsched, hdiv⟩ := (inv_iff hc r).1 h
  have hslot' : SlotInv c (afterDiv c r).1 := hslot.of_eq (by simp) (by simp) (by simp)
  have htab' : TableInRange c (afterDiv c r).1 := TableInRange.of_eq htab (by simp)
  have hstep : SchedInv c (afterStep c r).1 :=
    stepPart_schedInv hc (commitPart_schedInv (hsched.of_eq rfl rfl rfl rfl))
  have hdivided : DividerCountersLow c (afterDiv c r).1 :=
    divPart_dividerCountersLow (DividerCountersLow.of_eq hdiv (by simp) (by simp) (by simp))
  refine (inv_iff hc _).2 ⟨TableInRange.of_eq htab (tick_pw c r), ?_, ?_, ?_⟩
  · exact (slotTick_slotInv hc htab' hslot').of_eq (tick_period c r) (tick_pulse c r) (tick_scnt c r)
  · exact hstep.of_eq (tick_rem c r) (tick_stepEn c r) (tick_deferred c r) (tick_inStep c r)
  · exact DividerCountersLow.of_eq hdivided (tick_cntMs c r) (tick_cnt10ms c r) (tick_cnt250ms c r)

theorem setpw_inv {c : Config} (hc : c.Valid) {ch : BitVec 8} {v : BitVec 32} {r r' : Regs} {data : BitVec 32}
    (h : Inv c r) (hok : setpw c ch v r = .ok (r', data)) : Inv c r' := by
  obtain ⟨htab, hslot, hsched, hdiv⟩ := (inv_iff hc r).1 h
  obtain ⟨i, w, -, hw, rfl⟩ := setpw_ok hok
  exact (inv_iff hc _).2 ⟨writePw_tableInRange htab (pulseOf_range hc hw), hslot.of_eq rfl rfl rfl,
    hsched.of_eq rfl rfl rfl rfl, hdiv⟩

theorem arm_inv {c : Config} (hc : c.Valid) (hdelay : c.minDelay < 2 ^ 32) {d : BitVec 32} {r r' : Regs}
    {data : BitVec 32} (h : Inv c r) (hok : arm c d r = .ok (r', data)) : Inv c r' := by
  obtain ⟨htab, hslot, -, hdiv⟩ := (inv_iff hc r).1 h
  refine (inv_iff hc _).2 ⟨?_, ?_, arm_schedInv hc hdelay hok, ?_⟩ <;> rcases arm_ok hok with ⟨-, rfl⟩ | ⟨-, rfl⟩
  · exact htab
  · exact TableInRange.of_eq htab (by simp)
  · exact hslot.of_eq rfl rfl rfl
  · exact hslot.of_eq (by simp) (by simp) (by simp)
  · exact hdiv
  · exact DividerCountersLow.of_eq hdiv (by simp) (by simp) (by simp)

theorem stop_inv {c : Config} (hc : c.Valid) {r r' : Regs} {data : BitVec 32} (h : Inv c r)
    (hok : stop c r = .ok (r', data)) : Inv c r' := by
  obtain ⟨htab, hslot, -, hdiv⟩ := (inv_iff hc r).1 h
  obtain rfl := stop_ok hok
  exact (inv_iff hc _).2 ⟨htab, hslot.of_eq rfl rfl rfl, SchedInv.of_disabled rfl rfl, hdiv⟩

theorem tstclr_inv {c : Config} (hc : c.Valid) {f : BitVec 8} {r r' : Regs} {data : BitVec 32} (h : Inv c r)
    (hok : tstclr f r = .ok (r', data)) : Inv c r' := by
  obtain ⟨htab, hslot, hsched, hdiv⟩ := (inv_iff hc r).1 h
  obtain ⟨flag, -, rfl⟩ := tstclr_ok hok
  exact (inv_iff hc _).2 ⟨TableInRange.of_eq htab (by simp), hslot.of_eq (by simp) (by simp) (by simp),
    hsched.of_eq (by simp) (by simp) (by simp) (by simp),
    DividerCountersLow.of_eq hdiv (by simp) (by simp) (by simp)⟩

theorem stepdone_inv {c : Config} (hc : c.Valid) {r r' : Regs} {data : BitVec 32} (h : Inv c r)
    (hok : stepdone r = .ok (r', data)) : Inv c r' := by
  obtain ⟨htab, hslot, hsched, hdiv⟩ := (inv_iff hc r).1 h
  obtain ⟨-, rfl⟩ := stepdone_ok hok
  exact (inv_iff hc _).2 ⟨TableInRange.of_eq htab (by simp), hslot.of_eq (by simp) (by simp) (by simp),
    stepReturn_schedInv hsched, DividerCountersLow.of_eq hdiv (by simp) (by simp) (by simp)⟩

/-- A command that answers OK keeps the invariants; one that answers an error leaves no record (R13). -/
theorem commandAt_inv {c : Config} (hc : c.Valid) (hdelay : c.minDelay < 2 ^ 32) (i : Instr) {r r' : Regs}
    {data : BitVec 32} (h : Inv c r) (hok : commandAt c i r = .ok (r', data)) : Inv c r' := by
  cases i with
  | setpw ch v => exact setpw_inv hc h hok
  | getpw ch => exact getpw_ok hok ▸ h
  | arm d => exact arm_inv hc hdelay h hok
  | stop => exact stop_inv hc h hok
  | tstclr f => exact tstclr_inv hc h hok
  | rdreg sel => exact rdreg_ok hok ▸ h
  | stepdone => exact stepdone_inv hc h hok

/-- R45 is inductive at every valid configuration whose `MIN_DELAY` fits `REM`. -/
theorem stepAt_inv {c : Config} (hc : c.Valid) (hdelay : c.minDelay < 2 ^ 32) {s : State} (h : Inv c s.regs) :
    Inv c (stepAt c s).regs := by
  rcases stepAt_regs_cases c s with htick | ⟨i, data, hcmd⟩ | hsame | hreset
  · rw [htick]; exact tick_inv hc h
  · exact commandAt_inv hc hdelay i h hcmd
  · rw [hsame]; exact h
  · rw [hreset]; exact reset_inv hc

theorem runAt_inv {c : Config} (hc : c.Valid) (hdelay : c.minDelay < 2 ^ 32) (n : Nat) {s : State}
    (h : Inv c s.regs) : Inv c (runAt c n s).regs := by
  induction n generalizing s with
  | zero => exact h
  | succ n ih => exact ih (stepAt_inv hc hdelay h)

/-- Settles O43: the reset record is good, and every configured step keeps it so. -/
theorem everyValidConfigurationStaysGood : Obligations.EveryValidConfigurationStaysGood :=
  fun _ _ n hc hdelay => runAt_inv hc hdelay n (reset_inv hc)

end Sys2Proof.Proofs
end

section
/-! PROOFS. The statements of spec/10_state.md: the state record right after reset (R20, R230), the invariants of R45
there and across every step, what a TICK does to `TCNT` (R28) and to the scheduler's class (R35), and the "written by"
column of R20 for the commands (R47). -/

namespace Sys2Proof.Proofs

open Sys2Proof.Machine Sys2Proof.Safety

/-! ### The invariants of R45 at this hardware's configuration -/

/-- Settles O42: a step is the configured step (`stepIsTheConfiguredStep`), which keeps R45 (`stepAt_inv`). -/
theorem stepKeepsTheInvariants : Obligations.StepKeepsTheInvariants := by
  intro s t hgood hstep
  rw [stepIsTheConfiguredStep s] at hstep
  cases hstep
  have hdelay : Config.hw.minDelay < 2 ^ 32 := by decide
  exact stepAt_inv hw_valid hdelay hgood

/-- Settles O41: `reset_inv` at this hardware's configuration. -/
theorem resetMeetsTheInvariants : Obligations.ResetMeetsTheInvariants := reset_inv hw_valid

/-! ### The record right after reset -/

/-- `DIV_PERIOD` is at most 65535 (R9), so `OCR_D` holds the whole of it. -/
theorem reset_ocrD_toNat {c : Config} (hc : c.Valid) : (Regs.reset c).ocrD.toNat = c.divPeriod := by
  obtain ⟨-, -, -, -, -, -, -, -, hperiod⟩ := hc
  exact Nat.mod_eq_of_lt (Nat.lt_succ_of_le hperiod.2)

/-- Settles O10: the table by `readPw_reset`, `OCR_D` by the range of the OPEN parameter, the rest by computation. -/
theorem resetRecordValues : Obligations.ResetRecordValues :=
  ⟨readPw_reset Config.hw, rfl, rfl, rfl, rfl, rfl, rfl, rfl, rfl, rfl, rfl, reset_ocrD_toNat hw_valid,
    rfl, rfl, rfl, rfl, rfl, rfl, rfl⟩

/-! ### A TICK of this hardware -/

@[simp] theorem tickTransition_regs (s : State) : (tickTransition s).regs = (tick Config.hw s.regs).1 := rfl
@[simp] theorem tickTransition_inputs (s : State) : (tickTransition s).inputs = s.inputs := rfl
@[simp] theorem tickTransition_response (s : State) : (tickTransition s).response = none := rfl

/-- Settles O26, by what a TICK does to `TCNT` and to the table (`tick_tcnt`, `tick_pw`). -/
theorem tickAdvancesTcnt : Obligations.TickAdvancesTcnt := by
  intro s rest hs
  refine ⟨_, step_tick s rest hs, ?_, tick_pw .., tickTransition_response _, tickTransition_inputs _⟩
  rw [tickTransition_regs, tick_tcnt, BitVec.toNat_add]
  rfl

/-! ### The scheduler's class in a TICK -/

/-- The moves between R35's classes that a TICK can make: the firing of the last segment, the wrap that leaves less
than 2^16 to run, or none. -/
inductive TickMove : SchedClass → SchedClass → Prop where
  | stay (k : SchedClass) : TickMove k k
  | fire : TickMove .armedSingle .fired
  | lastWrap : TickMove .armedMulti .armedSingle

/-- R35 class by class: where each class can go in a TICK. -/
theorem TickMove.clauses {k k' : SchedClass} (h : TickMove k k') :
    (k = .idle → k' = .idle) ∧
    (k = .armedSingle → k' = .armedSingle ∨ k' = .fired) ∧
    (k = .armedMulti → k' = .armedSingle ∨ k' = .armedMulti) ∧
    (k = .fired → k' = .fired) := by
  cases h with
  | stay => exact ⟨id, .inl, .inr, id⟩
  | fire => exact ⟨nofun, fun _ => .inr rfl, nofun, nofun⟩
  | lastWrap => exact ⟨nofun, nofun, fun _ => .inl rfl, nofun⟩

section Classes

variable {r r' : Regs}

theorem schedClass_congr (hrem : r'.rem = r.rem) (hen : r'.stepEn = r.stepEn) (hdef : r'.deferred = r.deferred)
    (hin : r'.inStep = r.inStep) : schedClass r' = schedClass r := by
  simp only [schedClass, hrem, hen, hdef, hin]

theorem schedClass_of_inStep (hin : r.inStep = true) : schedClass r = .fired := by
  rw [schedClass, if_pos hin]

theorem schedClass_of_armed (hin : r.inStep = false) (harmed : r.stepEn = true ∨ r.deferred = true) :
    schedClass r = if r.rem.toNat < 2 ^ 16 then .armedSingle else .armedMulti := by
  rw [schedClass, if_neg (by simp [hin]), if_pos (by simpa using harmed)]

end Classes

/-- COMMIT turns the request into the enable, which R35's armed classes do not tell apart. -/
theorem commitPart_schedClass (r : Regs) : schedClass (commitPart r) = schedClass r := by
  rcases commitPart_cases r with ⟨hdef, hin, hs⟩ | ⟨-, hs⟩ <;> rw [hs]
  have hcommitted : schedClass (commit r) = if r.rem.toNat < 2 ^ 16 then .armedSingle else .armedMulti :=
    schedClass_of_armed hin (.inl rfl)
  rw [hcommitted, schedClass_of_armed hin (.inr hdef)]

/-- A wrap is no move of a step in progress, and leaves an armed one armed: `STEP_EN` stays 1 (R135). -/
theorem intermediateWrap_tickMove (c : Config) {r : Regs} (hen : r.stepEn = true) (hrem : 2 ^ 16 ≤ r.rem.toNat) :
    TickMove (schedClass r) (schedClass (intermediateWrap c r).1) := by
  have hen' : (intermediateWrap c r).1.stepEn = true := by simp [intermediateWrap_regs, hen]
  have hin' : (intermediateWrap c r).1.inStep = r.inStep := by simp [intermediateWrap_regs]
  cases hin : r.inStep with
  | true =>
    rw [schedClass_of_inStep hin, schedClass_of_inStep (hin'.trans hin)]
    exact .stay _
  | false =>
    rw [schedClass_of_armed hin (.inl hen), if_neg (Nat.not_lt.2 hrem),
      schedClass_of_armed (hin'.trans hin) (.inl hen')]
    split
    · exact .lastWrap
    · exact .stay _

/-- A real step fires the last segment of an armed delay; the class of a step in progress stays (R134). -/
theorem realStep_tickMove {r : Regs} (hen : r.stepEn = true) (hrem : r.rem.toNat < 2 ^ 16) :
    TickMove (schedClass r) (schedClass (realStep r).1) := by
  rw [schedClass_of_inStep (realStep_inStep r)]
  cases hin : r.inStep with
  | true => rw [schedClass_of_inStep hin]; exact .stay _
  | false => rw [schedClass_of_armed hin (.inl hen), if_pos hrem]; exact .fire

theorem stepPart_tickMove (c : Config) (r : Regs) :
    TickMove (schedClass r) (schedClass (stepPart c r).1) := by
  rcases stepPart_cases c r with ⟨-, hs⟩ | ⟨hen, -, hrem, hs⟩ | ⟨hen, -, hrem, hs⟩ <;> rw [hs]
  · exact .stay _
  · exact realStep_tickMove hen hrem
  · exact intermediateWrap_tickMove c hen hrem

/-- A TICK moves the scheduler as its step part does: the other parts keep the class. -/
theorem tick_tickMove (c : Config) (r : Regs) : TickMove (schedClass r) (schedClass (tick c r).1) := by
  have hbefore : schedClass (commitPart (countTick r)) = schedClass r :=
    (commitPart_schedClass _).trans (schedClass_congr rfl rfl rfl rfl)
  have hafter : schedClass (tick c r).1 = schedClass (afterStep c r).1 :=
    schedClass_congr (tick_rem c r) (tick_stepEn c r) (tick_deferred c r) (tick_inStep c r)
  rw [← hbefore, hafter]
  exact stepPart_tickMove c _

/-- Settles O40: the four clauses read off the moves a TICK can make (`tick_tickMove`). -/
theorem tickMovesSchedulerClasses : Obligations.TickMovesSchedulerClasses := by
  intro s rest hs
  exact ⟨_, step_tick s rest hs, (tick_tickMove Config.hw s.regs).clauses⟩

/-! ### What each command leaves unchanged -/

/-- The "written by" column of R20, for the commands: what the command leaves as it was in the record. -/
structure CommandFrame (i : Instr) (r r' : Regs) : Prop where
  slot : r'.idx = r.idx ∧ r'.period = r.period ∧ r'.pulse = r.pulse ∧ r'.scnt = r.scnt
  time : r'.tcnt = r.tcnt
  divider : r'.ocrD = r.ocrD ∧ r'.cntMs = r.cntMs ∧ r'.cnt10ms = r.cnt10ms ∧ r'.cnt250ms = r.cnt250ms
  table : (∀ ch v, i ≠ .setpw ch v) → r'.pw = r.pw
  delay : (∀ d, i ≠ .arm d) → r'.ocrS = r.ocrS ∧ r'.rem = r.rem
  divEnable : (∀ d, i ≠ .arm d) → i ≠ .stop → r'.divEn = r.divEn
  stepEnable : (∀ d, i ≠ .arm d) → i ≠ .stop → i ≠ .stepdone → r'.stepEn = r.stepEn ∧ r'.deferred = r.deferred
  inStep : i ≠ .stepdone → r'.inStep = r.inStep
  flags : (∀ f, i ≠ .tstclr f) → r'.f10ms = r.f10ms ∧ r'.f250ms = r.f250ms ∧ r'.f1s = r.f1s

theorem CommandFrame.refl (i : Instr) (r : Regs) : CommandFrame i r r := by
  constructor <;> simp

/-- The record of a command that answers OK, command by command (R110, R111, R130, R132, R137, R165, R180). -/
theorem commandAt_frame {c : Config} {i : Instr} {r r' : Regs} {data : BitVec 32}
    (hok : commandAt c i r = .ok (r', data)) : CommandFrame i r r' := by
  cases i with
  | setpw ch v =>
    obtain ⟨j, w, -, -, rfl⟩ := setpw_ok hok
    constructor <;> simp
  | getpw ch => exact getpw_ok hok ▸ .refl _ _
  | arm d => rcases arm_ok hok with ⟨-, rfl⟩ | ⟨-, rfl⟩ <;> constructor <;> simp
  | stop =>
    obtain rfl := stop_ok hok
    constructor <;> simp
  | tstclr f =>
    obtain ⟨flag, -, rfl⟩ := tstclr_ok hok
    constructor <;> simp
  | rdreg sel => exact rdreg_ok hok ▸ .refl _ _
  | stepdone =>
    obtain ⟨-, rfl⟩ := stepdone_ok hok
    constructor <;> simp

/-- An error discards every write of the command (R13), so the frame holds of every outcome. -/
theorem runCommand_frame (c : Config) (i : Instr) (s : State) :
    CommandFrame i s.regs (runCommand (commandAt c i) s).regs := by
  rcases runCommand_cases (commandAt c i) s with ⟨r, data, hok, hrun⟩ | ⟨e, -, hrun⟩ <;> rw [hrun]
  · exact commandAt_frame hok
  · exact .refl _ _

@[simp] theorem runCommand_inputs (cmd : Regs → CmdResult) (s : State) : (runCommand cmd s).inputs = s.inputs :=
  complete_inputs _ s

/-- Settles O37: every command runs through `runCommand`, whose record keeps the frame (`runCommand_frame`). -/
theorem commandsWriteOnlyTheirElements : Obligations.CommandsWriteOnlyTheirElements := by
  intro i s
  obtain ⟨⟨hidx, hperiod, hpulse, hscnt⟩, htcnt, ⟨hocrD, hms, h10ms, h250ms⟩, htable, hdelay, hdivEn, hstepEn,
    hinStep, hflags⟩ := runCommand_frame Config.hw i s
  exact ⟨_, exec_eq_runCommand i s, runCommand_inputs _ s, hidx, hperiod, hpulse, hscnt, htcnt, hocrD, hms, h10ms,
    h250ms, htable, hdelay, hdivEn, hstepEn, hinStep, hflags⟩

end Sys2Proof.Proofs
end

section
/-! PROOFS. The statements of spec/20_memory.md: the bytes of a word on a byte-wide bus (R62, R63), the order of the
transitions (R68, R69) and the reads without a side effect (R67, R182). -/

namespace Sys2Proof.Proofs

open Sys2Proof.Machine

/-! ### Bytes on the bus -/

theorem wordsOfBytes_wholeWord (b0 b1 b2 b3 b4 b5 : Byte) (later : List Byte) :
    wordsOfBytes (b0 :: b1 :: b2 :: b3 :: b4 :: b5 :: later) =
      ((b5 ++ b4 ++ b3 ++ b2 ++ b1 ++ b0 : BitVec 48) :: (wordsOfBytes later).1, (wordsOfBytes later).2) := rfl

/-- Bytes of a word not yet whole are in the second branch of `wordsOfBytes`: the first takes six (R63). -/
theorem wordsOfBytes_partialWord {bytes : List Byte} (h : bytes.length < 6) : wordsOfBytes bytes = ([], bytes) := by
  unfold wordsOfBytes
  split
  · simp only [List.length_cons] at h
    omega
  · rfl

/-- The six bytes of R62 are neighbouring slices of the word, so laid end to end they are its slice of all 48 bits. -/
theorem bytes_append_eq_word (w : CommandWord) :
    (w.extractLsb' 40 8 ++ w.extractLsb' 32 8 ++ w.extractLsb' 24 8 ++ w.extractLsb' 16 8 ++ w.extractLsb' 8 8 ++
      w.extractLsb' 0 8 : BitVec 48) = w := by
  simp only [BitVec.extractLsb'_append_extractLsb'_eq_extractLsb', BitVec.extractLsb'_eq_self]

theorem wordsOfBytes_commandBytes_append (w : CommandWord) (later : List Byte) :
    wordsOfBytes (commandBytes w ++ later) = (w :: (wordsOfBytes later).1, (wordsOfBytes later).2) := by
  simp only [commandBytes, List.cons_append, List.nil_append, wordsOfBytes_wholeWord, bytes_append_eq_word]

/-- Settles O6: a whole word by its slices (`bytes_append_eq_word`), a partial one by its length. -/
theorem busBytesDeliverWholeWords : Obligations.BusBytesDeliverWholeWords :=
  ⟨wordsOfBytes_commandBytes_append, fun _ => wordsOfBytes_partialWord⟩

/-! ### The order of the transitions -/

@[simp] theorem illegalWord_inputs (s : State) : (illegalWord s).inputs = s.inputs := complete_inputs _ s

/-- Every transition is taken from the state without the first input, and no transition touches the rest. -/
theorem step_inputs {s t : State} (h : step s = .next t) : t.inputs = s.inputs.tail := by
  rcases step_cases s t h with ⟨rfl, -⟩ | ⟨w, i, -, -, rfl⟩ | ⟨w, e, -, -, rfl⟩ | ⟨-, rfl⟩
  · exact tickTransition_inputs _
  · exact runCommand_inputs ..
  · exact illegalWord_inputs _
  · exact resetTransition_inputs _

theorem step_nil_eq_step_tick {s : State} (hs : s.inputs = []) : step s = step { s with inputs := [.tick] } := by
  rw [step_nil s hs, step_tick { s with inputs := [.tick] } [] rfl, ← hs]

/-- Settles O14: the inputs of each kind of step (`step_inputs`), and the step with none (`step_nil_eq_step_tick`). -/
theorem stepTakesTheNextInput : Obligations.StepTakesTheNextInput :=
  ⟨fun _ _ => step_inputs, fun _ _ hs htick => (step_nil_eq_step_tick hs).trans htick⟩

/-! ### Reads -/

/-- Completing twice with one result is completing once: the second response and record overwrite equal ones. -/
theorem complete_complete (res : CmdResult) (s : State) : complete res (complete res s) = complete res s := by
  cases res <;> rfl

section Reads

variable {cmd : Regs → CmdResult} {s : State}

/-- A command that never answers OK with another record leaves the record, since an error carries none (R13). -/
theorem runCommand_regs_of_ok (hread : ∀ r data, cmd s.regs = .ok (r, data) → r = s.regs) :
    (runCommand cmd s).regs = s.regs := by
  rcases runCommand_cases cmd s with ⟨r, data, hok, hrun⟩ | ⟨e, -, hrun⟩ <;> rw [hrun]
  exact hread r data hok

/-- A command that left the record finds it again, and so gives its result again. -/
theorem runCommand_runCommand (hregs : (runCommand cmd s).regs = s.regs) :
    runCommand cmd (runCommand cmd s) = runCommand cmd s :=
  calc runCommand cmd (runCommand cmd s)
    _ = complete (cmd s.regs) (runCommand cmd s) := by rw [← hregs]; rfl
    _ = runCommand cmd s := complete_complete (cmd s.regs) s

end Reads

/-- GETPW and RDREG answer OK only with the record they read (R111, R180). -/
theorem commandAt_read_ok {c : Config} {i : Instr} (hi : (∃ ch, i = .getpw ch) ∨ ∃ r, i = .rdreg r) {r r' : Regs}
    {data : BitVec 32} (hok : commandAt c i r = .ok (r', data)) : r' = r := by
  rcases hi with ⟨ch, rfl⟩ | ⟨sel, rfl⟩
  · exact getpw_ok hok
  · exact rdreg_ok hok

/-- Settles O39: a read leaves the record (`commandAt_read_ok`), so that it repeats (`runCommand_runCommand`). -/
theorem readsHaveNoSideEffect : Obligations.ReadsHaveNoSideEffect := by
  intro i s hi
  have hregs : (runCommand (commandAt Config.hw i) s).regs = s.regs :=
    runCommand_regs_of_ok fun _ _ => commandAt_read_ok hi
  exact ⟨_, _, exec_eq_runCommand i s, exec_eq_runCommand i _, hregs, runCommand_runCommand hregs⟩

end Sys2Proof.Proofs
end

section
/-! PROOFS. The statements of spec/30_encoding.md: the command words and their decoding (R81, R84), the match and mask
list (R87, R88), the encoding examples (R93), the assembler's lines (R91, R92), and the one response of every word at
the port (R83, R86).

A word is its three fields (`packCommand_eq_iff`), so decode and encode are inverse to each other on the words that
decode (`decode_eq_ok_iff`), and a row of R87 asks for its opcode and its must-be-zero fields (`accepts_iff_fields`). -/

namespace Sys2Proof.Proofs

open Sys2Proof.Machine

/-! ### The fields of a word -/

@[simp] theorem opField_packCommand (op sel : BitVec 8) (imm : BitVec 32) : opField (packCommand op sel imm) = op :=
  calc opField (packCommand op sel imm)
    _ = (op ++ sel).extractLsb' 8 8 := BitVec.extractLsb'_append_eq_of_le (by decide)
    _ = op := BitVec.extractLsb'_append_eq_left

@[simp] theorem selField_packCommand (op sel : BitVec 8) (imm : BitVec 32) :
    selField (packCommand op sel imm) = sel :=
  calc selField (packCommand op sel imm)
    _ = (op ++ sel).extractLsb' 0 8 := BitVec.extractLsb'_append_eq_of_le (by decide)
    _ = sel := BitVec.extractLsb'_append_eq_right

@[simp] theorem immField_packCommand (op sel : BitVec 8) (imm : BitVec 32) :
    immField (packCommand op sel imm) = imm :=
  BitVec.extractLsb'_append_eq_right

/-- The three fields of R81 are neighbouring slices of the word and leave no bit out. -/
theorem packCommand_fields (w : CommandWord) : packCommand (opField w) (selField w) (immField w) = w := by
  simp only [packCommand, opField, selField, immField, BitVec.extractLsb'_append_extractLsb'_eq_extractLsb',
    BitVec.extractLsb'_eq_self]

theorem packCommand_eq_iff {op sel : BitVec 8} {imm : BitVec 32} {w : CommandWord} :
    packCommand op sel imm = w ↔ opField w = op ∧ selField w = sel ∧ immField w = imm := by
  constructor
  · rintro rfl
    simp
  · rintro ⟨rfl, rfl, rfl⟩
    exact packCommand_fields w

theorem toNat_append_eq_mul_add {m n : Nat} (x : BitVec m) (y : BitVec n) :
    (x ++ y).toNat = x.toNat * 2 ^ n + y.toNat := by
  rw [BitVec.toNat_append, ← Nat.shiftLeft_add_eq_or_of_lt y.isLt, Nat.shiftLeft_eq]

/-- The word as a number, by the place of each field (R81). -/
theorem toNat_packCommand (op sel : BitVec 8) (imm : BitVec 32) :
    (packCommand op sel imm).toNat = op.toNat * 0x10000000000 + sel.toNat * 0x100000000 + imm.toNat := by
  unfold packCommand
  rw [toNat_append_eq_mul_add, toNat_append_eq_mul_add]
  omega

/-! ### Decode and encode -/

/-- What R84's must-be-zero checks let through: a field the row does not use is 0. -/
theorem requireZero_eq_ok_iff {selUsed immUsed : Bool} {w : CommandWord} {i j : Instr} :
    requireZero selUsed immUsed w i = .ok j ↔
      (selUsed = false → selField w = 0#8) ∧ (immUsed = false → immField w = 0#32) ∧ i = j := by
  unfold requireZero
  split
  case isTrue hsel => simp_all
  case isFalse hsel =>
    split
    case isTrue himm => simp_all
    case isFalse himm => simp_all

/-- Settles O1, command by command: the fields of the packed word are the operands, and the rest of it is 0. -/
theorem decodeOfEncode : Obligations.DecodeOfEncode := by
  intro i
  cases i <;> simp [encode, decode, requireZero_eq_ok_iff]

/-- Settles O2, row by row of R84: the opcode, the operands and the fields that must be 0 are the whole word. -/
theorem encodeOfDecode : Obligations.EncodeOfDecode := by
  intro w i h
  unfold decode at h
  split at h
  case h_8 => cases h
  all_goals
    rename_i hop
    obtain ⟨hsel, himm, rfl⟩ := requireZero_eq_ok_iff.mp h
    exact packCommand_eq_iff.mpr ⟨BitVec.eq_of_toNat_eq hop, by simp_all, by simp_all⟩

theorem decode_eq_ok_iff {w : CommandWord} {i : Instr} : decode w = .ok i ↔ encode i = w :=
  ⟨encodeOfDecode w i, fun h => h ▸ decodeOfEncode i⟩

/-- Settles O5: each word of R93 is the word of its command. -/
theorem specExampleWordsDecode : Obligations.SpecExampleWordsDecode :=
  ⟨decodeOfEncode (.setpw 3#8 2000#32), decodeOfEncode (.setpw 15#8 600#32), decodeOfEncode (.getpw 3#8),
    decodeOfEncode (.arm 1000#32), decodeOfEncode (.arm 150000#32), decodeOfEncode (.arm 0#32), decodeOfEncode .stop,
    decodeOfEncode (.tstclr 2#8), decodeOfEncode (.rdreg 0x14#8), decodeOfEncode (.rdreg 0x16#8),
    decodeOfEncode .stepdone⟩

/-! ### The match and mask list -/

/-- Each row of R87 fixes the whole of `OP` and asks nothing of the other fields but zeros. -/
theorem opcodeRows_fields : ∀ row ∈ opcodeRows,
    packCommand 0xFF#8 (selField row.mask) (immField row.mask) = row.mask ∧
    selField row.pattern = 0#8 ∧ immField row.pattern = 0#32 := by
  decide

theorem accepts_iff_fields {row : OpcodeRow} (hrow : row ∈ opcodeRows) (w : CommandWord) :
    row.accepts w = true ↔
      opField w = opField row.pattern ∧ selField w &&& selField row.mask = 0#8 ∧
        immField w &&& immField row.mask = 0#32 := by
  obtain ⟨hmask, hsel, himm⟩ := opcodeRows_fields row hrow
  have hand : w &&& row.mask =
      packCommand (opField w) (selField w &&& selField row.mask) (immField w &&& immField row.mask) := by
    rw [← Laws.EncodedWordIsInTable.packCommand_and, packCommand_fields, hmask]
  rw [OpcodeRow.accepts, beq_iff_eq, hand, packCommand_eq_iff, hsel, himm]
  simp only [eq_comm]

theorem wordWellFormed_iff_accepts {w : CommandWord} :
    wordWellFormed w = true ↔ ∃ row ∈ opcodeRows, row.accepts w = true :=
  List.any_eq_true

theorem encode_wellFormed (i : Instr) : wordWellFormed (encode i) = true := by
  cases i with
  | setpw ch v => exact Laws.EncodedWordIsInTable.setpw ch v
  | getpw ch => exact Laws.EncodedWordIsInTable.getpw ch
  | arm d => exact Laws.EncodedWordIsInTable.arm d
  | stop => exact Laws.EncodedWordIsInTable.stop
  | tstclr f => exact Laws.EncodedWordIsInTable.tstclr f
  | rdreg r => exact Laws.EncodedWordIsInTable.rdreg r
  | stepdone => exact Laws.EncodedWordIsInTable.stepdone

theorem eq_zero_of_and_allOnes {n : Nat} {x : BitVec n} (h : x &&& BitVec.allOnes n = 0#n) : x = 0#n := by
  rwa [BitVec.and_allOnes] at h

/-- A word a row accepts is the word of the row's command with the word's own fields as its operands. -/
theorem exists_encode_of_accepts {row : OpcodeRow} (hrow : row ∈ opcodeRows) {w : CommandWord}
    (h : row.accepts w = true) : ∃ i, encode i = w := by
  obtain ⟨hop, hsel, himm⟩ := (accepts_iff_fields hrow w).mp h
  simp only [opcodeRows, List.mem_cons, List.not_mem_nil, or_false] at hrow
  rcases hrow with rfl | rfl | rfl | rfl | rfl | rfl | rfl
  · exact ⟨.setpw (selField w) (immField w), packCommand_eq_iff.mpr ⟨hop, rfl, rfl⟩⟩
  · exact ⟨.getpw (selField w), packCommand_eq_iff.mpr ⟨hop, rfl, eq_zero_of_and_allOnes himm⟩⟩
  · exact ⟨.arm (immField w), packCommand_eq_iff.mpr ⟨hop, eq_zero_of_and_allOnes hsel, rfl⟩⟩
  · exact ⟨.stop, packCommand_eq_iff.mpr ⟨hop, eq_zero_of_and_allOnes hsel, eq_zero_of_and_allOnes himm⟩⟩
  · exact ⟨.tstclr (selField w), packCommand_eq_iff.mpr ⟨hop, rfl, eq_zero_of_and_allOnes himm⟩⟩
  · exact ⟨.rdreg (selField w), packCommand_eq_iff.mpr ⟨hop, rfl, eq_zero_of_and_allOnes himm⟩⟩
  · exact ⟨.stepdone, packCommand_eq_iff.mpr ⟨hop, eq_zero_of_and_allOnes hsel, eq_zero_of_and_allOnes himm⟩⟩

/-- The well-formed words are the words of the commands. -/
theorem wordWellFormed_iff_encode {w : CommandWord} : wordWellFormed w = true ↔ ∃ i, encode i = w := by
  constructor
  · intro h
    obtain ⟨row, hrow, hacc⟩ := wordWellFormed_iff_accepts.mp h
    exact exists_encode_of_accepts hrow hacc
  · rintro ⟨i, rfl⟩
    exact encode_wellFormed i

/-- Settles O3: both sides say that the word is some command's (`decode_eq_ok_iff`, `wordWellFormed_iff_encode`). -/
theorem decodeAcceptsExactlyTheTable : Obligations.DecodeAcceptsExactlyTheTable := fun w =>
  calc (∃ i, decode w = .ok i)
    _ ↔ ∃ i, encode i = w := exists_congr fun _ => decode_eq_ok_iff
    _ ↔ ∃ row ∈ opcodeRows, row.accepts w = true := wordWellFormed_iff_encode.symm.trans wordWellFormed_iff_accepts
    _ ↔ ∃ row ∈ opcodeRows, w &&& row.mask = row.pattern := by simp only [OpcodeRow.accepts, beq_iff_eq]

theorem opcodeRows_pairwise_opField_ne :
    opcodeRows.Pairwise fun a b => opField a.pattern ≠ opField b.pattern := by
  decide

/-- Settles O4: a row fixes `OP` (`accepts_iff_fields`), and the rows' opcodes differ. -/
theorem opcodeRowsDisjoint : Obligations.OpcodeRowsDisjoint := by
  refine opcodeRows_pairwise_opField_ne.imp_of_mem fun {a b} ha hb hne w ⟨hacca, haccb⟩ => hne ?_
  obtain ⟨hopa, -, -⟩ := (accepts_iff_fields ha w).mp hacca
  obtain ⟨hopb, -, -⟩ := (accepts_iff_fields hb w).mp haccb
  exact hopa.symm.trans hopb

/-! ### Assembler lines -/

/-- A line of a command assembles exactly when its numbers fit, to the word that decodes to the command (R91). -/
theorem assemble_eq_some_iff {a : Asm} {i : Instr} (hcmd : a.command = some i) (w : CommandWord) :
    assemble a = some w ↔ a.wellFormed = true ∧ decode w = .ok i := by
  rw [decode_eq_ok_iff, assemble, hcmd]
  split <;> simp_all

/-- A line without numbers has one word, its command's. -/
theorem assemble_eq_some_iff_word {a : Asm} (i : Instr) (hcmd : a.command = some i)
    (hfit : a.wellFormed = true) (w : CommandWord) : assemble a = some w ↔ w = encode i ∧ decode w = .ok i := by
  rw [assemble_eq_some_iff hcmd, decode_eq_ok_iff, eq_comm (a := w)]
  simp [hfit]

theorem fitsField_and_iff {sel imm : Nat} : (fitsField 8 sel && fitsField 32 imm) = true ↔
    sel < 256 ∧ imm < 4294967296 := by
  simp [fitsField]

theorem toNat_packCommand_ofNat (op : BitVec 8) {sel imm : Nat} (hsel : sel < 256) (himm : imm < 4294967296) :
    (packCommand op (BitVec.ofNat 8 sel) (BitVec.ofNat 32 imm)).toNat =
      op.toNat * 0x10000000000 + sel * 0x100000000 + imm := by
  rw [toNat_packCommand, BitVec.toNat_ofNat, BitVec.toNat_ofNat, Nat.mod_eq_of_lt hsel, Nat.mod_eq_of_lt himm]

/-- A line with the number `sel` in `SEL` and `imm` in `IMM`: the word is fixed as a number when both fit. -/
theorem assemble_eq_some_iff_fields (a : Asm) (op : BitVec 8) (sel imm : Nat) {i : Instr} (hcmd : a.command = some i)
    (henc : encode i = packCommand op (BitVec.ofNat 8 sel) (BitVec.ofNat 32 imm))
    (hfit : a.wellFormed = (fitsField 8 sel && fitsField 32 imm)) (w : CommandWord) :
    assemble a = some w ↔ (sel < 256 ∧ imm < 4294967296) ∧
      w.toNat = op.toNat * 0x10000000000 + sel * 0x100000000 + imm ∧ decode w = .ok i := by
  rw [assemble_eq_some_iff hcmd, hfit, fitsField_and_iff]
  refine and_congr_right fun ⟨hsel, himm⟩ => ⟨fun hd => ⟨?_, hd⟩, And.right⟩
  rw [← decode_eq_ok_iff.mp hd, henc, toNat_packCommand_ofNat op hsel himm]

/-- Settles O7, form by form: the numbers by the fields they go to (`assemble_eq_some_iff_fields`), the lines without
numbers by their one word (`assemble_eq_some_iff_word`). -/
theorem assembledLinesDecode : Obligations.AssembledLinesDecode := by
  refine ⟨fun ch v w => ?setpw, fun ch w => ?getpw, fun d w => ?arm, fun w => ?stop, fun f w => ?tstclr,
    fun r w => ?rdreg, fun w => ?stepdone, fun w => ?cancel, fun n => ⟨rfl, rfl⟩⟩
  case setpw => simpa [and_assoc] using assemble_eq_some_iff_fields (.setpw ch v) 0x01#8 ch v rfl rfl rfl w
  case getpw => simpa using assemble_eq_some_iff_fields (.getpw ch) 0x02#8 ch 0 rfl rfl (Bool.and_true _).symm w
  case arm => simpa using assemble_eq_some_iff_fields (.arm d) 0x03#8 0 d rfl rfl rfl w
  case stop => exact assemble_eq_some_iff_word .stop rfl rfl w
  case tstclr => simpa using assemble_eq_some_iff_fields (.tstclr f) 0x05#8 f 0 rfl rfl (Bool.and_true _).symm w
  case rdreg => simpa using assemble_eq_some_iff_fields (.rdreg r) 0x06#8 r 0 rfl rfl (Bool.and_true _).symm w
  case stepdone => exact assemble_eq_some_iff_word .stepdone rfl rfl w
  case cancel => exact assemble_eq_some_iff_word (.arm 0#32) rfl rfl w

/-! ### Words at the port -/

theorem runWord_of_decode_ok {w : CommandWord} {i : Instr} (h : decode w = .ok i) (s : State) :
    runWord w s = exec i s := by
  unfold runWord; rw [h]

/-- Settles O12: the step runs the word at the head of the inputs, and the word runs the command it decodes to. -/
theorem stepRunsTheDecodedCommand : Obligations.StepRunsTheDecodedCommand := by
  intro s w rest i hs hd
  rw [step_command s w rest hs, runWord_of_decode_ok hd]

/-- ERR_ILLEGAL in R83's code, with data 0, and the record as it was (R88). -/
theorem illegalWord_eq (s : State) : illegalWord s = { s with response := some 0x0100000000#40, events := [] } := rfl

theorem runWord_of_not_wellFormed {w : CommandWord} (h : wordWellFormed w = false) (s : State) :
    runWord w s = .next (illegalWord s) := by
  rcases runWord_cases w s with ⟨i, hd, -⟩ | ⟨e, -, hr⟩
  · rw [← decode_eq_ok_iff.mp hd, encode_wellFormed] at h
    cases h
  · exact hr

/-- To show a word illegal, show that it is no command's. -/
theorem wordWellFormed_eq_false_of {w : CommandWord} (h : ∀ i, encode i ≠ w) : wordWellFormed w = false := by
  rw [← Bool.not_eq_true, wordWellFormed_iff_encode]
  exact fun ⟨i, hi⟩ => h i hi

theorem opField_encode_range (i : Instr) : 0 < (opField (encode i)).toNat ∧ (opField (encode i)).toNat < 8 := by
  cases i <;> simp [encode]

/-- ARM, STOP and STEPDONE leave `SEL` at 0 (R87). -/
theorem selField_encode_eq_zero {i : Instr}
    (h : opField (encode i) = 3#8 ∨ opField (encode i) = 4#8 ∨ opField (encode i) = 7#8) :
    selField (encode i) = 0#8 := by
  cases i <;> simp_all [encode]

/-- Every command but SETPW and ARM leaves `IMM` at 0 (R87). -/
theorem immField_encode_eq_zero {i : Instr}
    (h : opField (encode i) = 2#8 ∨ opField (encode i) = 4#8 ∨ opField (encode i) = 5#8 ∨ opField (encode i) = 6#8 ∨
      opField (encode i) = 7#8) :
    immField (encode i) = 0#32 := by
  cases i <;> simp_all [encode]

/-- Settles O13: an illegal word runs as `illegalWord`; each clause of R88 on the fields excludes every command's
word. -/
theorem illegalWordAnswersErrIllegal : Obligations.IllegalWordAnswersErrIllegal := by
  intro s w rest hs
  refine ⟨fun hill => ?_, fun hop => ?_, fun hsel hop => ?_, fun himm hop => ?_⟩
  · rw [step_command s w rest hs, runWord_of_not_wellFormed hill, illegalWord_eq]
  all_goals
    refine wordWellFormed_eq_false_of ?_
    rintro i rfl
  · have hrange := opField_encode_range i
    omega
  · exact hsel (selField_encode_eq_zero hop)
  · exact himm (immField_encode_eq_zero hop)

theorem status_code_cases (st : Status) :
    st.code = 0x00#8 ∨ st.code = 0x01#8 ∨ st.code = 0x02#8 ∨ st.code = 0x03#8 := by
  cases st <;> simp [Status.code]

/-- A command's one response carries a status of R83 and its data, and no event is emitted (R43, R86). -/
theorem runCommand_answers (cmd : Regs → CmdResult) (s : State) :
    ∃ st data, (runCommand cmd s).response = some (responseWord st data) ∧ (runCommand cmd s).events = [] := by
  rcases runCommand_cases cmd s with ⟨r, data, -, hrun⟩ | ⟨e, -, hrun⟩ <;> rw [hrun]
  · exact ⟨.ok, data, rfl, rfl⟩
  · exact ⟨e, 0#32, rfl, rfl⟩

/-- Settles O36: every word, legal or not, is one `runCommand` (`runWord_eq_runCommand`), which answers once. -/
theorem everyCommandAnswersOnce : Obligations.EveryCommandAnswersOnce := by
  intro s w rest hs
  obtain ⟨st, data, hresponse, hevents⟩ :=
    runCommand_answers (commandWordAt Config.hw w) { s with inputs := rest }
  refine ⟨_, _, (step_command s w rest hs).trans (runWord_eq_runCommand w _), hresponse, hevents, ?_⟩
  rw [statusField_responseWord]
  exact status_code_cases st

end Sys2Proof.Proofs
end

section
/-! PROOFS. The statements of spec/40_tick_source.md: the order of a TICK's events (R101, R102), and what a TICK leaves
of a channel that it gives no match (R103, R164, R247).

A channel has no match in a TICK when it is disabled as its part of the TICK begins, or when the new `TCNT` is not its
compare value. Either way its part does nothing, so one lemma per channel (`tick_stepChannelQuiet`,
`tick_dividerQuiet`) serves both. -/

namespace Sys2Proof.Proofs

open Sys2Proof.Machine

/-! ### The events of a TICK -/

@[simp] theorem tickTransition_events (s : State) : (tickTransition s).events = (tick Config.hw s.regs).2 := rfl

/-- Settles O27: the event list is the three parts' lists in R102's order (`tick_events`), each one of the lists its
part can emit. -/
theorem tickEventsInOrder : Obligations.TickEventsInOrder := by
  intro s rest hs
  refine ⟨_, _, _, _, step_tick s rest hs, tick_events .., stepPart_events .., divPart_events .., ?_⟩
  rw [tickTransition_regs, tick_idx]
  exact slotTick_events _

/-- An intermediate wrap happens in a TICK exactly when its step part says so. -/
theorem stepWrap_mem_tick (c : Config) (r : Regs) :
    .stepWrap ∈ (tick c r).2 ↔ .stepWrap ∈ (afterStep c r).2 := by
  have hdiv : .stepWrap ∉ (afterDiv c r).2 := by
    rcases divPart_events c (afterStep c r).1 with h | h <;> simp [h]
  have hslot : .stepWrap ∉ (slotTick (afterDiv c r).1).2 := by
    rcases slotTick_events (afterDiv c r).1 with h | h <;> simp [h]
  rw [tick_events, List.append_assoc, List.mem_append, List.mem_append]
  exact or_iff_left (not_or.2 ⟨hdiv, hslot⟩)

/-! ### The parts of a TICK on a channel without a match -/

@[simp] theorem commitPart_stepEn (r : Regs) :
    (commitPart r).stepEn = (r.stepEn || (r.deferred && !r.inStep)) := by
  rcases commitPart_cases r with ⟨hdef, hin, h⟩ | ⟨hdef | hin, h⟩ <;> simp [*]

@[simp] theorem commitPart_deferred (r : Regs) : (commitPart r).deferred = (r.deferred && r.inStep) := by
  rcases commitPart_cases r with ⟨-, hin, h⟩ | ⟨hdef | hin, h⟩ <;> simp [*]

theorem stepPart_of_not_match {c : Config} {r : Regs} (h : ¬(r.stepEn = true ∧ r.tcnt = r.ocrS)) :
    stepPart c r = (r, []) := if_neg h

theorem divPart_of_not_match {c : Config} {r : Regs} (h : ¬(r.divEn = true ∧ r.tcnt = r.ocrD)) :
    divPart c r = (r, []) := if_neg h

/-! ### The step channel -/

/-- The step channel goes through a TICK from `r` to `res` with at most its commit (R136): no event of it, and no other
change of its elements. -/
structure StepChannelQuiet (r : Regs) (res : EventResult) : Prop where
  ocrS : res.1.ocrS = r.ocrS
  rem : res.1.rem = r.rem
  inStep : res.1.inStep = r.inStep
  stepEn : res.1.stepEn = (r.stepEn || (r.deferred && !r.inStep))
  deferred : res.1.deferred = (r.deferred && r.inStep)
  noFire : .stepFire ∉ res.2
  noWrap : .stepWrap ∉ res.2

/-- Without a match the step part does nothing, so what is left of the channel's change is the commit. -/
theorem tick_stepChannelQuiet (c : Config) {r : Regs}
    (h : ¬((commitPart (countTick r)).stepEn = true ∧ r.tcnt + 1#16 = r.ocrS)) : StepChannelQuiet r (tick c r) := by
  have hstep : afterStep c r = (commitPart (countTick r), []) := stepPart_of_not_match (by simpa using h)
  exact {
    ocrS := by rw [tick_ocrS, hstep, commitPart_ocrS, countTick_ocrS]
    rem := by rw [tick_rem, hstep, commitPart_rem, countTick_rem]
    inStep := by rw [tick_inStep, hstep, commitPart_inStep, countTick_inStep]
    stepEn := by rw [tick_stepEn, hstep, commitPart_stepEn]; rfl
    deferred := by rw [tick_deferred, hstep, commitPart_deferred]; rfl
    noFire := by rw [stepFire_mem_tick, hstep]; exact List.not_mem_nil
    noWrap := by rw [stepWrap_mem_tick, hstep]; exact List.not_mem_nil }

/-- A disabled channel with no commit to come has nothing to commit: its enable stays 0 and its request stays. -/
theorem enables_unchanged_of_disabled {r : Regs} (hen : r.stepEn = false)
    (hcommit : r.deferred = false ∨ r.inStep = true) :
    (r.stepEn || (r.deferred && !r.inStep)) = false ∧ (r.deferred && r.inStep) = r.deferred := by
  rcases hcommit with hdef | hin <;> simp [*]

/-! ### The divider channel -/

/-- The divider channel goes through a TICK from `r` to `res` with no event of it and no change of its elements. -/
structure DividerQuiet (r : Regs) (res : EventResult) : Prop where
  ocrD : res.1.ocrD = r.ocrD
  divEn : res.1.divEn = r.divEn
  cntMs : res.1.cntMs = r.cntMs
  cnt10ms : res.1.cnt10ms = r.cnt10ms
  cnt250ms : res.1.cnt250ms = r.cnt250ms
  f10ms : res.1.f10ms = r.f10ms
  f250ms : res.1.f250ms = r.f250ms
  f1s : res.1.f1s = r.f1s
  noEvent : .divEvent ∉ res.2

/-- Without a match the divider part does nothing, and the parts before it write none of the divider's elements. -/
theorem tick_dividerQuiet (c : Config) {r : Regs} (h : ¬(r.divEn = true ∧ r.tcnt + 1#16 = r.ocrD)) :
    DividerQuiet r (tick c r) := by
  have hdiv : afterDiv c r = ((afterStep c r).1, []) := divPart_of_not_match (by simpa using h)
  exact {
    ocrD := by simp [tick_ocrD, hdiv]
    divEn := tick_divEn c r
    cntMs := by simp [tick_cntMs, hdiv]
    cnt10ms := by simp [tick_cnt10ms, hdiv]
    cnt250ms := by simp [tick_cnt250ms, hdiv]
    f10ms := by simp [tick_f10ms, hdiv]
    f250ms := by simp [tick_f250ms, hdiv]
    f1s := by simp [tick_f1s, hdiv]
    noEvent := by rw [divEvent_mem_tick, hdiv]; exact List.not_mem_nil }

/-! ### The statements -/

/-- Settles O33: a disabled channel has no match, and with no commit the enable and the request stay too. -/
theorem disabledMatchLeavesNoTrace : Obligations.DisabledMatchLeavesNoTrace := by
  intro s rest hs
  refine ⟨_, step_tick s rest hs, fun hen hcommit => ?_, fun hdis => ?_⟩
  · obtain ⟨hstays, hrequest⟩ := enables_unchanged_of_disabled hen hcommit
    have hoff : (commitPart (countTick s.regs)).stepEn = false := (commitPart_stepEn _).trans hstays
    have q := tick_stepChannelQuiet Config.hw fun hmatch => Bool.false_ne_true (hoff.symm.trans hmatch.1)
    exact ⟨q.ocrS, q.rem, q.stepEn.trans hstays, q.deferred.trans hrequest, q.inStep, q.noFire, q.noWrap⟩
  · have q := tick_dividerQuiet Config.hw fun hmatch => Bool.false_ne_true (hdis.symm.trans hmatch.1)
    exact ⟨q.ocrD, q.divEn.trans hdis, q.cntMs, q.cnt10ms, q.cnt250ms, q.f10ms, q.f250ms, q.f1s, q.noEvent⟩

/-- Settles O56: a compare value that is not reached is no match, whatever the enable. -/
theorem tickWithoutAMatchLeavesTheChannels : Obligations.TickWithoutAMatchLeavesTheChannels := by
  intro s rest hs
  refine ⟨_, step_tick s rest hs, fun hne => ?_, fun hne => ?_⟩
  · have q := tick_stepChannelQuiet Config.hw fun hmatch => hne hmatch.2
    exact ⟨q.ocrS, q.rem, q.inStep, q.stepEn, q.deferred, q.noFire, q.noWrap⟩
  · have q := tick_dividerQuiet Config.hw fun hmatch => hne hmatch.2
    exact ⟨q.ocrD, q.divEn, q.cntMs, q.cnt10ms, q.cnt250ms, q.f10ms, q.f250ms, q.f1s, q.noEvent⟩

end Sys2Proof.Proofs
end

section
/-! PROOFS. The statements of spec/41_pulse_width_mux.md: SETPW and GETPW (R110, R111), the slot part of a TICK (R112,
R113), and the runs: the shape of a slot (R114), the length of a frame (R115), the cyclic order of the channels (R116)
and the longest wait of a table entry (R117, R244).

The runs rest on two step lemmas. `stepAt_slot_cases` says what one transition does to the slot registers: a command
leaves them, and a TICK counts inside the slot or starts the next one. `tick_ticksUntil` puts that as a countdown: the
number of TICKs to the next boundary of a given channel goes down by one, and where it would reach 0 that boundary
comes. -/

namespace Sys2Proof.Proofs

open Sys2Proof.Machine Sys2Proof.Safety

/-! ### SETPW and GETPW -/

theorem setpw_of_refused {c : Config} {ch : BitVec 8} {v : BitVec 32}
    (h : 16 ≤ ch.toNat ∨ v.toNat < c.minPulse ∨ c.maxPulseExcl ≤ v.toNat) (r : Regs) :
    setpw c ch v r = raise .errRange := by
  unfold setpw
  split
  · rfl
  · next i hch =>
    have hlegal : ¬16 ≤ ch.toNat := by simp [← channelOf_eq_none, hch]
    rw [(pulseOf_eq_none c v).2 (h.resolve_left hlegal)]

theorem setpw_of_accepted {c : Config} {ch : BitVec 8} {v : BitVec 32} (hch : ch.toNat < 16)
    (hlo : c.minPulse ≤ v.toNat) (hhi : v.toNat < c.maxPulseExcl) (r : Regs) :
    setpw c ch v r = respond (writePw r ⟨ch.toNat, hch⟩ (BitVec.ofNat 16 v.toNat)) 0#32 := by
  have hvalue : pulseOf c v = some (BitVec.ofNat 16 v.toNat) := (pulseOf_eq_some c v _).2 ⟨hlo, hhi, by simp⟩
  rw [setpw, (channelOf_eq_some ch ⟨ch.toNat, hch⟩).2 rfl, hvalue]

theorem getpw_of_refused {ch : BitVec 8} (h : 16 ≤ ch.toNat) (r : Regs) : getpw ch r = raise .errRange := by
  rw [getpw, (channelOf_eq_none ch).2 h]

theorem getpw_of_accepted {ch : BitVec 8} (h : ch.toNat < 16) (r : Regs) :
    getpw ch r = respond r ((readPw r ⟨ch.toNat, h⟩).setWidth 32) := by
  rw [getpw, (channelOf_eq_some ch ⟨ch.toNat, h⟩).2 rfl]

/-- The status OK is 0, so the response word is its data as a number (R82, R83). -/
theorem responseWord_ok (data : BitVec 32) : responseWord .ok data = BitVec.ofNat 40 data.toNat := by
  apply BitVec.eq_of_toNat_eq
  have hdata := data.isLt
  simp only [responseWord, Status.code, toNat_append_eq_mul_add, BitVec.toNat_ofNat]
  omega

theorem responseWord_entry (w : Ticks) : responseWord .ok (w.setWidth 32) = BitVec.ofNat 40 w.toNat := by
  have hw := w.isLt
  rw [responseWord_ok, BitVec.toNat_setWidth, Nat.mod_eq_of_lt (by omega)]

/-- Settles O17, by the two outcomes of the record function (`setpw_of_refused`, `setpw_of_accepted`). -/
theorem setpwWritesOneEntryOrRefuses : Obligations.SetpwWritesOneEntryOrRefuses := by
  intro ch v s
  refine ⟨fun hrefused => ?_, fun hch hlo hhi => ?_⟩
  · rw [exec_eq_runCommand, commandAt, runCommand, setpw_of_refused hrefused]; rfl
  · rw [exec_eq_runCommand, commandAt, runCommand, setpw_of_accepted hch hlo hhi]; rfl

/-- Settles O18, by the two outcomes of the record function (`getpw_of_refused`, `getpw_of_accepted`). -/
theorem getpwReturnsTheEntry : Obligations.GetpwReturnsTheEntry := by
  intro ch s
  refine ⟨fun hrefused => ?_, fun hch => ?_⟩
  · rw [exec_eq_runCommand, commandAt, runCommand, getpw_of_refused hrefused]; rfl
  · rw [exec_eq_runCommand, commandAt, runCommand, getpw_of_accepted hch, respond, complete, responseWord_entry]; rfl

/-- Settles O19: both reads by O18, the write between them by O17; the entry read is the one written exactly when the
channels agree. -/
theorem getpwAfterSetpw : Obligations.GetpwAfterSetpw := by
  intro ch ch' v s hch'
  obtain ⟨hrefused, haccepted⟩ := setpwWritesOneEntryOrRefuses ch v s
  have hread := fun t => (getpwReturnsTheEntry ch' t).2 hch'
  by_cases hok : ch.toNat < 16 ∧ 600 ≤ v.toNat ∧ v.toNat < 2400
  · obtain ⟨hch, hlo, hhi⟩ := hok
    refine ⟨_, _, _, haccepted hch hlo hhi, hread _, hread _, ?_⟩
    by_cases heq : ch' = ch
    · subst heq
      have hfits : v.toNat % 65536 = v.toNat := Nat.mod_eq_of_lt (by omega)
      simp [hlo, hhi, hfits]
    · have hne : ch.toNat ≠ ch'.toNat := fun he => heq (BitVec.eq_of_toNat_eq he.symm)
      simp [heq, hne]
  · refine ⟨_, _, _, hrefused (by omega), hread _, hread _, ?_⟩
    rw [if_neg]
    rintro ⟨rfl, hrange⟩
    exact hok ⟨hch', hrange⟩

/-! ### Boundaries among events -/

@[simp] theorem boundariesIn_nil : boundariesIn [] = [] := rfl

@[simp] theorem boundariesIn_append (es fs : List Event) :
    boundariesIn (es ++ fs) = boundariesIn es ++ boundariesIn fs :=
  List.filterMap_append

theorem muxBoundary_mem_of_boundariesIn {es : List Event} {i : BitVec 4} (h : boundariesIn es = [i]) :
    .muxBoundary i ∈ es := by
  obtain ⟨e, he, hi⟩ := List.mem_filterMap.1 (h ▸ List.mem_singleton_self i : i ∈ boundariesIn es)
  cases e <;> cases hi
  exact he

/-- The step part and the divider part of a TICK begin no slot. -/
theorem boundariesIn_afterDiv (c : Config) (r : Regs) :
    boundariesIn ((afterStep c r).2 ++ (afterDiv c r).2) = [] := by
  have hstep : boundariesIn (afterStep c r).2 = [] := by
    rcases stepPart_events c (commitPart (countTick r)) with h | h | h <;> rw [h] <;> rfl
  have hdiv : boundariesIn (afterDiv c r).2 = [] := by
    rcases divPart_events c (afterStep c r).1 with h | h <;> rw [h] <;> rfl
  rw [boundariesIn_append, hstep, hdiv, List.append_nil]

/-! ### The slot registers in one transition -/

/-- The registers that hold the shape of a slot for as long as it lasts (R24, R25, R26, R114). -/
structure SlotKept (r r' : Regs) : Prop where
  idx : r'.idx = r.idx
  period : r'.period = r.period
  pulse : r'.pulse = r.pulse

theorem SlotKept.refl (r : Regs) : SlotKept r r := ⟨rfl, rfl, rfl⟩

theorem SlotKept.trans {r r' r'' : Regs} (h : SlotKept r r') (h' : SlotKept r' r'') : SlotKept r r'' :=
  ⟨h'.idx.trans h.idx, h'.period.trans h.period, h'.pulse.trans h.pulse⟩

/-- A slot of the next channel in turn, begun from the table as it stands (R113). -/
structure NextSlot (r r' : Regs) : Prop where
  scnt : r'.scnt = 0#16
  idx : r'.idx = r.idx + 1#4
  pulse : r'.pulse = readPw r (r.idx + 1#4).toFin
  period : r'.period = readPw r (r.idx + 1#4).toFin + 1#16

/-- What a TICK does to the slot: it counts inside the slot, or begins the next one (R112, R113). -/
theorem tick_slot_cases (c : Config) (r : Regs) :
    (r.scnt + 1#16 ≠ r.period ∧ (tick c r).1.scnt = r.scnt + 1#16 ∧ SlotKept r (tick c r).1 ∧
      boundariesIn (tick c r).2 = []) ∨
    (r.scnt + 1#16 = r.period ∧ NextSlot r (tick c r).1 ∧
      (tick c r).2 = (afterStep c r).2 ++ (afterDiv c r).2 ++ [.muxBoundary (r.idx + 1#4), .wdtKick]) := by
  have htable : ∀ i, readPw (afterDiv c r).1 i = readPw r i := fun i => by simp [readPw]
  have hevents := tick_events c r
  rcases slotTick_cases (afterDiv c r).1 with ⟨hne, hs⟩ | ⟨heq, hs⟩
  · refine .inl ⟨by simpa using hne, by simp [tick_scnt, hs], ⟨?_, ?_, ?_⟩, ?_⟩
    · simp [tick_idx, hs]
    · simp [tick_period, hs]
    · simp [tick_pulse, hs]
    · rw [hevents, hs, List.append_nil, boundariesIn_afterDiv]
  · refine .inr ⟨by simpa using heq, ⟨?_, ?_, ?_, ?_⟩, ?_⟩
    · simp [tick_scnt, hs]
    · simp [tick_idx, hs]
    · rw [tick_pulse, hs, ← htable]; simp [readPw]
    · rw [tick_period, hs, ← htable]; simp [readPw]
    · rw [hevents, hs, slotBoundary_events]; simp

theorem tick_inside {c : Config} {r : Regs} (h : r.scnt + 1#16 ≠ r.period) :
    (tick c r).1.scnt = r.scnt + 1#16 ∧ SlotKept r (tick c r).1 ∧ boundariesIn (tick c r).2 = [] := by
  rcases tick_slot_cases c r with ⟨-, hinside⟩ | ⟨heq, -⟩
  · exact hinside
  · exact absurd heq h

theorem tick_boundary {c : Config} {r : Regs} (h : r.scnt + 1#16 = r.period) :
    NextSlot r (tick c r).1 ∧
      (tick c r).2 = (afterStep c r).2 ++ (afterDiv c r).2 ++ [.muxBoundary (r.idx + 1#4), .wdtKick] := by
  rcases tick_slot_cases c r with ⟨hne, -⟩ | ⟨-, hboundary⟩
  · exact absurd h hne
  · exact hboundary

theorem boundariesIn_tick_boundary {c : Config} {r : Regs} (h : r.scnt + 1#16 = r.period) :
    boundariesIn (tick c r).2 = [r.idx + 1#4] := by
  rw [(tick_boundary h).2, boundariesIn_append, boundariesIn_afterDiv]; rfl

/-- Settles O28, by what a TICK does inside the slot (`tick_inside`). -/
theorem slotTickCountsInsideTheSlot : Obligations.SlotTickCountsInsideTheSlot := by
  intro s rest hs hne
  obtain ⟨hscnt, hkept, hnone⟩ := tick_inside (c := Config.hw) hne
  exact ⟨_, step_tick s rest hs, hscnt, hkept.idx, hkept.period, hkept.pulse, hnone⟩

/-- Settles O29, by what a TICK does at the end of the slot (`tick_boundary`); the table's range keeps `PULSE` above 0
and `PULSE + 1` in 16 bits. -/
theorem slotBoundaryStartsTheNextSlot : Obligations.SlotBoundaryStartsTheNextSlot := by
  intro s rest hs heq htab
  obtain ⟨⟨hscnt, hidx, hpulse, hperiod⟩, hevents⟩ := tick_boundary (c := Config.hw) heq
  obtain ⟨hlo, hhi⟩ := htab (s.regs.idx + 1#4).toFin
  have hhigh : 0 < (readPw s.regs (s.regs.idx + 1#4).toFin).toNat := Nat.lt_of_lt_of_le (by decide) hlo
  refine ⟨_, _, step_tick s rest hs, hscnt, ?_, ?_, ?_, rfl, ?_, ?_, boundariesIn_afterDiv Config.hw s.regs⟩ <;>
    simp only [tickTransition_regs, tickTransition_events, hidx]
  · exact BitVec.toNat_add _ _
  · exact hpulse
  · rw [hperiod, pulse_succ_toNat hw_valid hhi]
  · simpa [servoOut, hscnt, hpulse] using hhigh
  · exact hevents

/-! ### Runs of this hardware -/

/-- A run of this hardware is the run of its configured step, which always goes on. -/
theorem run_eq_runAt (n : Nat) (s : State) : Host.Core.run Sys2Proof.core n s = .next (runAt Config.hw n s) := by
  induction n generalizing s with
  | zero => rfl
  | succ n ih =>
    have hstep : Sys2Proof.core.step s = .next (stepAt Config.hw s) := stepIsTheConfiguredStep s
    simp only [Host.Core.run, hstep]
    exact ih _

theorem runAt_succ_eq_stepAt (c : Config) (n : Nat) (s : State) : runAt c (n + 1) s = stepAt c (runAt c n s) := by
  induction n generalizing s with
  | zero => rfl
  | succ n ih => exact ih (stepAt c s)

theorem eventsOfRun_succ (n : Nat) (s : State) :
    eventsOfRun (n + 1) s = (stepAt Config.hw s).events ++ eventsOfRun n (stepAt Config.hw s) := by
  simp only [eventsOfRun, stepIsTheConfiguredStep s]

theorem boundariesIn_eventsOfRun_succ (n : Nat) (s : State) :
    boundariesIn (eventsOfRun (n + 1) s) =
      boundariesIn (stepAt Config.hw s).events ++ boundariesIn (eventsOfRun n (stepAt Config.hw s)) := by
  rw [eventsOfRun_succ, boundariesIn_append]

theorem stepAt_hw_inputs (s : State) : (stepAt Config.hw s).inputs = s.inputs.tail :=
  step_inputs (stepIsTheConfiguredStep s)

theorem good_stepAt {s : State} (h : Good s) : Good (stepAt Config.hw s) :=
  stepKeepsTheInvariants s _ h (stepIsTheConfiguredStep s)

@[simp] theorem tickCount_nil : tickCount [] = 0 := rfl
@[simp] theorem tickCount_tick_cons (xs : List Input) : tickCount (.tick :: xs) = tickCount xs + 1 :=
  List.countP_cons_of_pos rfl
@[simp] theorem tickCount_command_cons (w : CommandWord) (xs : List Input) :
    tickCount (.command w :: xs) = tickCount xs :=
  List.countP_cons_of_neg Bool.false_ne_true

/-- What a transition without reset does to the slot: a TICK does what `tick_slot_cases` says, and a command leaves the
slot's registers and its counter (R70, R114). -/
theorem stepAt_slot_cases (c : Config) {s : State} {x : Input} {rest : List Input} (hs : s.inputs = x :: rest)
    (hx : x ≠ .reset) :
    (x = .tick ∧ (stepAt c s).regs = (tick c s.regs).1 ∧ (stepAt c s).events = (tick c s.regs).2) ∨
    (∃ w, x = .command w ∧ SlotKept s.regs (stepAt c s).regs ∧ (stepAt c s).regs.scnt = s.regs.scnt ∧
      (stepAt c s).events = []) := by
  cases x with
  | tick => rw [stepAt_tick c s rest hs]; exact .inl ⟨rfl, rfl, rfl⟩
  | reset => exact absurd rfl hx
  | command w =>
    rw [stepAt_command c s w rest hs]
    refine .inr ⟨w, rfl, ?_⟩
    rcases runCommand_commandWordAt_regs c w { s with inputs := rest } with hsame | ⟨i, data, hok⟩
    · rw [hsame]; exact ⟨.refl _, rfl, complete_events ..⟩
    · obtain ⟨hidx, hperiod, hpulse, hscnt⟩ := (commandAt_frame hok).slot
      exact ⟨⟨hidx, hperiod, hpulse⟩, hscnt, complete_events ..⟩

/-! ### The cyclic order of the channels -/

/-- The channel selected by boundary number `j`, from 0, when the slot in progress is `k`'s (R116). -/
abbrev channelAfter (k : BitVec 4) (j : Nat) : BitVec 4 := k + BitVec.ofNat 4 (j + 1)

/-- The first `m` channels selected after `k`'s slot. -/
abbrev selections (k : BitVec 4) (m : Nat) : List (BitVec 4) := (List.range m).map (channelAfter k)

theorem channelAfter_succ (k : BitVec 4) (j : Nat) : channelAfter k (j + 1) = channelAfter (k + 1#4) j := by
  rw [channelAfter, Nat.add_comm (j + 1), BitVec.ofNat_add, ← BitVec.add_assoc]

theorem selections_succ (k : BitVec 4) (m : Nat) : selections k (m + 1) = (k + 1#4) :: selections (k + 1#4) m := by
  rw [selections, List.range_succ_eq_map, List.map_cons, List.map_map]
  exact congrArg _ (List.map_congr_left fun j _ => channelAfter_succ k j)

/-- Sixteen boundaries in a row select each channel once (R116). -/
theorem count_selections_sixteen (k i : BitVec 4) : (selections k 16).count i = 1 := by
  revert k i
  decide

theorem run_boundaries_eq_selections (n : Nat) {s : State} (hreset : Input.reset ∉ s.inputs)
    (hn : n ≤ s.inputs.length) :
    ∃ m, boundariesIn (eventsOfRun n s) = selections s.regs.idx m ∧
      (runAt Config.hw n s).regs.idx = s.regs.idx + BitVec.ofNat 4 m := by
  induction n generalizing s with
  | zero => exact ⟨0, rfl, (BitVec.add_zero _).symm⟩
  | succ n ih =>
    match hs : s.inputs with
    | [] => simp [hs] at hn
    | x :: rest =>
      have hinputs : (stepAt Config.hw s).inputs = rest := by rw [stepAt_hw_inputs, hs]; rfl
      rw [hs, List.mem_cons, not_or] at hreset
      obtain ⟨m, hbs, hidx⟩ := ih (s := stepAt Config.hw s) (hinputs ▸ hreset.2)
        (by rw [hinputs]; rw [hs] at hn; exact Nat.le_of_succ_le_succ hn)
      rw [boundariesIn_eventsOfRun_succ, hbs, runAt, hidx]
      rcases stepAt_slot_cases Config.hw hs (Ne.symm hreset.1) with
        ⟨-, hregs, hevents⟩ | ⟨w, -, hkept, -, hevents⟩
      · rw [hregs, hevents]
        by_cases hend : s.regs.scnt + 1#16 = s.regs.period
        · refine ⟨m + 1, ?_, ?_⟩ <;> rw [(tick_boundary hend).1.idx]
          · rw [boundariesIn_tick_boundary hend, selections_succ]; rfl
          · rw [Nat.add_comm m, BitVec.ofNat_add, BitVec.add_assoc]
        · obtain ⟨-, hkept, hnone⟩ := tick_inside (c := Config.hw) hend
          exact ⟨m, by rw [hkept.idx, hnone]; rfl, by rw [hkept.idx]⟩
      · exact ⟨m, by rw [hkept.idx, hevents]; rfl, by rw [hkept.idx]⟩

/-- Settles O44, by induction over the run (`run_boundaries_eq_selections`) and the sixteen channels of one round. -/
theorem boundariesGoRoundRobin : Obligations.BoundariesGoRoundRobin := by
  intro n s hreset hn
  obtain ⟨m, hbs, hidx⟩ := run_boundaries_eq_selections n hreset hn
  refine ⟨_, m, run_eq_runAt n s, hbs, hidx, ?_⟩
  rintro rfl
  exact ⟨hidx.trans (BitVec.add_zero _), fun i => hbs ▸ count_selections_sixteen _ i⟩

/-! ### The shape of a slot -/

theorem toNat_succ_of_lt {a b : Ticks} (h : a.toNat < b.toNat) : (a + 1#16).toNat = a.toNat + 1 := by
  have hb := b.isLt
  rw [BitVec.toNat_add]
  exact Nat.mod_eq_of_lt (by change a.toNat + 1 < 2 ^ 16; omega)

theorem succ_eq_iff_of_lt {a b : Ticks} (h : a.toNat < b.toNat) : a + 1#16 = b ↔ a.toNat + 1 = b.toNat := by
  rw [← BitVec.toNat_inj, toNat_succ_of_lt h]

/-- Inputs whose TICKs do not reach the end of the slot leave its shape and only count (R112, R114). -/
theorem run_inside_slot (xs : List Input) {s : State} {rest : List Input} (hs : s.inputs = xs ++ rest)
    (hreset : Input.reset ∉ xs) (hin : s.regs.scnt.toNat + tickCount xs < s.regs.period.toNat) :
    SlotKept s.regs (runAt Config.hw xs.length s).regs ∧
      (runAt Config.hw xs.length s).regs.scnt.toNat = s.regs.scnt.toNat + tickCount xs ∧
      boundariesIn (eventsOfRun xs.length s) = [] ∧ (runAt Config.hw xs.length s).inputs = rest := by
  induction xs generalizing s with
  | nil => exact ⟨.refl _, rfl, rfl, hs⟩
  | cons x xs ih =>
    have hinputs : (stepAt Config.hw s).inputs = xs ++ rest := by rw [stepAt_hw_inputs, hs]; rfl
    rw [List.mem_cons, not_or] at hreset
    -- The first transition keeps the slot, makes no boundary and counts its own TICKs; the others do the rest.
    obtain ⟨hkept, hcount, hnone⟩ : SlotKept s.regs (stepAt Config.hw s).regs ∧
        (stepAt Config.hw s).regs.scnt.toNat + tickCount xs = s.regs.scnt.toNat + tickCount (x :: xs) ∧
        boundariesIn (stepAt Config.hw s).events = [] := by
      rcases stepAt_slot_cases Config.hw hs (Ne.symm hreset.1) with
        ⟨rfl, hregs, hevents⟩ | ⟨w, rfl, hkept, hscnt, hevents⟩
      · rw [tickCount_tick_cons] at hin ⊢
        have hlt : s.regs.scnt.toNat < s.regs.period.toNat := by omega
        have hne : s.regs.scnt + 1#16 ≠ s.regs.period := by rw [Ne, succ_eq_iff_of_lt hlt]; omega
        obtain ⟨hscnt, hkept, hnone⟩ := tick_inside (c := Config.hw) hne
        rw [hregs, hevents, hscnt, toNat_succ_of_lt hlt]
        exact ⟨hkept, by omega, hnone⟩
      · exact ⟨hkept, by rw [hscnt, tickCount_command_cons], by rw [hevents]; rfl⟩
    rw [← hcount] at hin ⊢
    obtain ⟨hkept', hcount', hnone', hrest⟩ := ih hinputs hreset.2 (by rw [hkept.period]; exact hin)
    refine ⟨hkept.trans hkept', hcount', ?_, hrest⟩
    rw [List.length_cons, boundariesIn_eventsOfRun_succ, hnone, hnone']; rfl

/-- Settles O45: up to `PULSE` TICKs stay inside the slot (`run_inside_slot`), and the TICK after them is the one whose
count reaches `PERIOD` (`tick_boundary`). -/
theorem slotKeepsItsShapeUnderCommands : Obligations.SlotKeepsItsShapeUnderCommands := by
  intro s xs rest hs hreset hstart hperiod
  have hzero : s.regs.scnt.toNat = 0 := by rw [hstart]; rfl
  refine ⟨fun hk => ?_, fun hk hnext => ?_⟩ <;>
    obtain ⟨hkept, hcount, hnone, hrest⟩ := run_inside_slot xs hs hreset (by omega) <;>
    rw [hzero, Nat.zero_add] at hcount
  · refine ⟨_, run_eq_runAt _ s, hcount, hkept.period, hkept.pulse, hkept.idx, ?_, hnone⟩
    rw [servoOut, hcount, hkept.pulse]
  · obtain ⟨later, rfl⟩ : ∃ later, rest = .tick :: later := List.head?_eq_some_iff.1 hnext
    set t := runAt Config.hw xs.length s
    have hend : t.regs.scnt + 1#16 = t.regs.period := by
      rw [succ_eq_iff_of_lt (by rw [hcount, hkept.period]; omega), hcount, hkept.period, hperiod, hk]
    obtain ⟨⟨hscnt, hidx, hpulse, -⟩, -⟩ := tick_boundary (c := Config.hw) hend
    refine ⟨_, run_eq_runAt _ s, ?_⟩
    rw [runAt_succ_eq_stepAt, stepAt_tick _ t later hrest]
    simp only [addrOut, endTick_regs, endTick_events, hidx, ← hkept.idx]
    refine ⟨hscnt, trivial, ?_, boundariesIn_tick_boundary hend⟩
    rw [hpulse]; simp only [readPw, tick_pw]

/-! ### The ticks of a frame -/

/-- The TICKs a slot of channel `i` lasts when it starts from the table as it stands (R114). -/
def slotTicks (r : Regs) (i : BitVec 4) : Nat := (readPw r i.toFin).toNat + 1

theorem slotTicks_congr {r r' : Regs} (hpw : r'.pw = r.pw) : slotTicks r' = slotTicks r := by
  funext i
  simp only [slotTicks, readPw, hpw]

theorem frameTicks_congr {r r' : Regs} (hpw : r'.pw = r.pw) : frameTicks r' = frameTicks r := by
  simp only [frameTicks, hpw]

theorem slotTicks_range {r : Regs} (htab : TableInRange Config.hw r) (i : BitVec 4) :
    601 ≤ slotTicks r i ∧ slotTicks r i ≤ 2400 := by
  obtain ⟨hlo, hhi⟩ := htab i.toFin
  exact ⟨Nat.succ_le_succ hlo, hhi⟩

/-- Whichever slot is in progress, the sixteen slots after it are a frame: one of each channel (R115). -/
theorem sum_slotTicks_eq_frameTicks (r : Regs) (k : BitVec 4) :
    ∑ j ∈ Finset.range 16, slotTicks r (channelAfter k j) = frameTicks r := by
  have hfin : ∀ j : Fin 16, (channelAfter k j).toFin = (k.toFin + 1) + j := by
    revert k; decide
  have htable : r.pw.toList = List.ofFn (readPw r) := by
    rw [← Vector.toList_ofFn]
    exact congrArg Vector.toList (Vector.ofFn_getElem (xs := r.pw)).symm
  calc ∑ j ∈ Finset.range 16, slotTicks r (channelAfter k j)
    _ = ∑ j : Fin 16, ((readPw r ((k.toFin + 1) + j)).toNat + 1) := by
      rw [Finset.sum_range]; simp only [slotTicks, hfin]
    _ = ∑ i : Fin 16, ((readPw r i).toNat + 1) :=
      Equiv.sum_comp (Equiv.addLeft (k.toFin + 1)) fun i => (readPw r i).toNat + 1
    _ = frameTicks r := by
      rw [frameTicks, htable, List.map_ofFn, List.sum_ofFn]; rfl

theorem sum_slotTicks_range {r : Regs} (htab : TableInRange Config.hw r) (k : BitVec 4) (m : Nat) :
    m * 601 ≤ ∑ j ∈ Finset.range m, slotTicks r (channelAfter k j) ∧
      ∑ j ∈ Finset.range m, slotTicks r (channelAfter k j) ≤ m * 2400 := by
  have hlo := Finset.card_nsmul_le_sum (Finset.range m) (fun j => slotTicks r (channelAfter k j)) 601
    fun j _ => (slotTicks_range htab _).1
  have hhi := Finset.sum_le_card_nsmul (Finset.range m) (fun j => slotTicks r (channelAfter k j)) 2400
    fun j _ => (slotTicks_range htab _).2
  rw [Finset.card_range] at hlo hhi
  exact ⟨hlo, hhi⟩

theorem frameTicks_range {r : Regs} (htab : TableInRange Config.hw r) :
    9616 ≤ frameTicks r ∧ frameTicks r ≤ 38400 := by
  rw [← sum_slotTicks_eq_frameTicks r 0#4]
  exact sum_slotTicks_range htab 0#4 16

/-! ### The countdown to a channel's next boundary -/

/-- The whole slots that come between the slot of channel `k - 1` and the next one of `ch`. -/
abbrev slotsBetween (k ch : BitVec 4) : Nat := (ch - k).toNat

/-- How many TICKs from now the boundary that selects `ch` comes while the table stays as it is: the rest of the slot in
progress, then the slots of the channels before `ch`. -/
def ticksUntil (ch : BitVec 4) (r : Regs) : Nat :=
  r.period.toNat - r.scnt.toNat +
    ∑ j ∈ Finset.range (slotsBetween (r.idx + 1#4) ch), slotTicks r (channelAfter r.idx j)

theorem slotsBetween_succ {k ch : BitVec 4} (h : k ≠ ch) : slotsBetween k ch = slotsBetween (k + 1#4) ch + 1 := by
  bv_omega

theorem ticksUntil_congr {r r' : Regs} (ch : BitVec 4) (hkept : SlotKept r r') (hscnt : r'.scnt = r.scnt)
    (hpw : r'.pw = r.pw) : ticksUntil ch r' = ticksUntil ch r := by
  rw [ticksUntil, hkept.period, hkept.idx, hscnt, slotTicks_congr hpw, ticksUntil]

/-- At the start of a channel's slot a whole frame lies before the next slot of that channel (R115). -/
theorem ticksUntil_of_slotStart {r : Regs} (hscnt : r.scnt = 0#16) (hperiod : r.period.toNat = slotTicks r r.idx) :
    ticksUntil r.idx r = frameTicks r := by
  have hround : slotsBetween (r.idx + 1#4) r.idx = 15 := by bv_omega
  have hself : channelAfter r.idx 15 = r.idx := BitVec.add_zero _
  rw [ticksUntil, hround, hscnt, hperiod, ← sum_slotTicks_eq_frameTicks r r.idx, Finset.sum_range_succ _ 15, hself]
  exact Nat.add_comm _ _

section Countdown

variable {c : Config} {r : Regs}

theorem tick_ticksUntil_inside (hin : SlotCounterInSlot r) (hne : r.scnt + 1#16 ≠ r.period) (ch : BitVec 4) :
    ticksUntil ch r = ticksUntil ch (tick c r).1 + 1 := by
  obtain ⟨hscnt, hkept, -⟩ := tick_inside (c := c) hne
  rw [ticksUntil, ticksUntil, hscnt, hkept.period, hkept.idx, slotTicks_congr (tick_pw c r), toNat_succ_of_lt hin]
  have : r.scnt.toNat < r.period.toNat := hin
  omega

theorem NextSlot.period_toNat {r' : Regs} (h : NextSlot r r') (hc : c.Valid) (htab : TableInRange c r) :
    r'.period.toNat = slotTicks r (r.idx + 1#4) := by
  rw [h.period, pulse_succ_toNat hc (htab _).2, slotTicks]

theorem tick_ticksUntil_boundary (hc : c.Valid) (htab : TableInRange c r) (hin : SlotCounterInSlot r)
    (hend : r.scnt + 1#16 = r.period) {ch : BitVec 4} (hother : r.idx + 1#4 ≠ ch) :
    ticksUntil ch r = ticksUntil ch (tick c r).1 + 1 := by
  have hnext := (tick_boundary (c := c) hend).1
  have hlast : r.scnt.toNat + 1 = r.period.toNat := (succ_eq_iff_of_lt hin).1 hend
  have hfirst : channelAfter r.idx 0 = r.idx + 1#4 := rfl
  rw [ticksUntil, ticksUntil, hnext.period_toNat hc htab, hnext.scnt, hnext.idx, slotTicks_congr (tick_pw c r),
    slotsBetween_succ hother, Finset.sum_range_succ', hfirst]
  simp only [channelAfter_succ, BitVec.toNat_ofNat]
  omega

/-- A TICK either selects `ch`, and then the countdown stood at 1, or takes the countdown down by one. -/
theorem tick_ticksUntil (hc : c.Valid) (htab : TableInRange c r) (hin : SlotCounterInSlot r) (ch : BitVec 4) :
    (r.scnt + 1#16 = r.period ∧ r.idx + 1#4 = ch ∧ ticksUntil ch r = 1) ∨
    (ch ∉ boundariesIn (tick c r).2 ∧ ticksUntil ch r = ticksUntil ch (tick c r).1 + 1) := by
  by_cases hend : r.scnt + 1#16 = r.period
  · by_cases hsel : r.idx + 1#4 = ch
    · have hlast : r.scnt.toNat + 1 = r.period.toNat := (succ_eq_iff_of_lt hin).1 hend
      refine .inl ⟨hend, hsel, ?_⟩
      rw [ticksUntil, hsel, slotsBetween, BitVec.sub_self]
      simp
      omega
    · refine .inr ⟨?_, tick_ticksUntil_boundary hc htab hin hend hsel⟩
      rw [boundariesIn_tick_boundary hend, List.mem_singleton]
      exact Ne.symm hsel
  · refine .inr ⟨?_, tick_ticksUntil_inside hin hend ch⟩
    rw [(tick_inside hend).2.2]
    exact List.not_mem_nil

/-- The boundary that selects a channel starts the countdown again at a whole frame. -/
theorem ticksUntil_of_selected (hc : c.Valid) (htab : TableInRange c r) (hend : r.scnt + 1#16 = r.period) :
    ticksUntil (r.idx + 1#4) (tick c r).1 = frameTicks r := by
  have hnext := (tick_boundary (c := c) hend).1
  rw [← hnext.idx, ← frameTicks_congr (tick_pw c r)]
  refine ticksUntil_of_slotStart hnext.scnt ?_
  rw [hnext.period_toNat hc htab, hnext.idx, slotTicks_congr (tick_pw c r)]

end Countdown

theorem ticksUntil_range {s : State} (h : Good s) (ch : BitVec 4) :
    0 < ticksUntil ch s.regs ∧ ticksUntil ch s.regs ≤ 38400 := by
  obtain ⟨htab, ⟨hperiod, -, hpulse⟩, hin, -⟩ := h
  have hpulse' : s.regs.pulse.toNat < 2400 := hpulse
  have hsum := (sum_slotTicks_range htab s.regs.idx (slotsBetween (s.regs.idx + 1#4) ch)).2
  have hslots : slotsBetween (s.regs.idx + 1#4) ch < 16 := BitVec.isLt _
  have hin' : s.regs.scnt.toNat < s.regs.period.toNat := hin
  rw [ticksUntil]
  omega

/-! ### A table entry reaches its slot -/

/-- TICKs alone bring the boundary that selects `ch`, with the width of its entry, when the countdown runs out. -/
theorem ticks_reach_boundary (k : Nat) {s : State} (hgood : Good s) (hs : s.inputs = List.replicate k .tick)
    (ch : BitVec 4) (hk : ticksUntil ch s.regs ≤ k) :
    let t := runAt Config.hw (ticksUntil ch s.regs) s
    .muxBoundary ch ∈ t.events ∧ t.regs.idx = ch ∧ t.regs.pulse = readPw s.regs ch.toFin := by
  induction k generalizing s with
  | zero => exact absurd (ticksUntil_range hgood ch).1 (by omega)
  | succ k ih =>
    have hstep := stepAt_tick Config.hw s _ hs
    have ⟨htab, _, hin, _⟩ := hgood
    rcases tick_ticksUntil hw_valid htab hin ch with ⟨hend, rfl, hone⟩ | ⟨-, hdown⟩
    · have hnext := (tick_boundary (c := Config.hw) hend).1
      rw [hone, runAt, runAt, hstep]
      exact ⟨muxBoundary_mem_of_boundariesIn (boundariesIn_tick_boundary hend), hnext.idx, hnext.pulse⟩
    · have hregs : (stepAt Config.hw s).regs = (tick Config.hw s.regs).1 := by rw [hstep]; rfl
      have hinputs : (stepAt Config.hw s).inputs = List.replicate k .tick := by rw [hstep]; rfl
      rw [← hregs] at hdown
      obtain ⟨hevent, hidx, hpulse⟩ := ih (good_stepAt hgood) hinputs (by omega)
      rw [hdown, runAt]
      refine ⟨hevent, hidx, hpulse.trans ?_⟩
      rw [hregs]; simp only [readPw, tick_pw]

/-- Settles O47: the countdown of a good state is at most sixteen of the longest slots (`ticksUntil_range`), and TICKs
run it out (`ticks_reach_boundary`). -/
theorem writeReachesItsSlotWithinAFrame : Obligations.WriteReachesItsSlotWithinAFrame := by
  intro s ch hgood hs
  obtain ⟨hpos, hle⟩ := ticksUntil_range hgood ch
  exact ⟨_, _, hpos, hle, run_eq_runAt _ s, ticks_reach_boundary 38400 hgood hs ch hle⟩

/-! ### The length of a frame -/

/-- With the table unchanged, the boundaries that select `ch` are those the countdown foretells: the first when it runs
out, and then one a frame. -/
theorem count_boundaries_eq_div (xs : List Input) {s : State} {rest : List Input} (hgood : Good s)
    (hs : s.inputs = xs ++ rest) (hreset : Input.reset ∉ xs)
    (htable : ∀ m ≤ xs.length, (runAt Config.hw m s).regs.pw = s.regs.pw) (ch : BitVec 4)
    (hle : ticksUntil ch s.regs ≤ frameTicks s.regs) :
    (boundariesIn (eventsOfRun xs.length s)).count ch =
      (tickCount xs + (frameTicks s.regs - ticksUntil ch s.regs)) / frameTicks s.regs := by
  induction xs generalizing s with
  | nil =>
    have hpos := (ticksUntil_range hgood ch).1
    refine (Nat.div_eq_of_lt ?_).symm
    rw [tickCount_nil]; omega
  | cons x xs ih =>
    have hinputs : (stepAt Config.hw s).inputs = xs ++ rest := by rw [stepAt_hw_inputs, hs]; rfl
    have ⟨htab, _, hin, _⟩ := hgood
    have hpw : (stepAt Config.hw s).regs.pw = s.regs.pw := htable 1 (Nat.succ_le_succ (Nat.zero_le _))
    rw [List.mem_cons, not_or] at hreset
    have hrest := ih (good_stepAt hgood) hinputs hreset.2
      fun m hm => (htable (m + 1) (Nat.succ_le_succ hm)).trans hpw.symm
    rw [frameTicks_congr hpw] at hrest
    rw [List.length_cons, boundariesIn_eventsOfRun_succ, List.count_append]
    rcases stepAt_slot_cases Config.hw hs (Ne.symm hreset.1) with
      ⟨rfl, hregs, hevents⟩ | ⟨w, rfl, hkept, hscnt, hevents⟩
    · rw [hevents, tickCount_tick_cons]
      rcases tick_ticksUntil hw_valid htab hin ch with ⟨hend, rfl, hone⟩ | ⟨hnone, hdown⟩
      · have hpos : 0 < frameTicks s.regs := by omega
        have hwhole : ticksUntil (s.regs.idx + 1#4) (stepAt Config.hw s).regs = frameTicks s.regs := by
          rw [hregs]; exact ticksUntil_of_selected hw_valid htab hend
        have hframe : tickCount xs + 1 + (frameTicks s.regs - 1) = tickCount xs + frameTicks s.regs := by omega
        rw [hrest hwhole.le, hwhole, boundariesIn_tick_boundary hend, List.count_singleton_self, hone, hframe,
          Nat.sub_self, Nat.add_zero, Nat.add_div_right _ hpos, Nat.add_comm]
      · rw [← hregs] at hdown
        rw [List.count_eq_zero_of_not_mem hnone, Nat.zero_add, hrest (by omega)]
        congr 1
        omega
    · have hsame := ticksUntil_congr ch hkept hscnt hpw
      rw [hevents, hrest (hsame.trans_le hle), hsame, tickCount_command_cons]
      exact Nat.zero_add _

/-- Settles O46: at the start of the channel's slot the countdown stands at a whole frame (`ticksUntil_of_slotStart`),
so the count of `count_boundaries_eq_div` is the number of whole frames. -/
theorem frameLengthIsTheSumOfSlots : Obligations.FrameLengthIsTheSumOfSlots := by
  intro s xs rest hgood hs hreset htable hstart hpulse
  have ⟨htab, ⟨hperiod, _⟩, _⟩ := hgood
  obtain ⟨hlo, hhi⟩ := frameTicks_range htab
  have hwhole : ticksUntil s.regs.idx s.regs = frameTicks s.regs :=
    ticksUntil_of_slotStart hstart (by rw [hperiod, hpulse, slotTicks])
  refine ⟨hlo, hhi, ⟨_, run_eq_runAt _ s⟩, ?_⟩
  rw [count_boundaries_eq_div xs hgood hs hreset (fun m hm => htable m _ hm (run_eq_runAt m s)) _ hwhole.le, hwhole,
    Nat.sub_self, Nat.add_zero]

end Sys2Proof.Proofs
end

section
/-! PROOFS. The statements of spec/42_deadline_scheduler.md: ARM, STOP and STEPDONE (R130, R132, R137), the commit, the
real step and the intermediate wrap inside a TICK (R134, R135, R136), and the runs: the exact delay of a new move
(R138), the cadence of a chained one (R139), and the silence after a STOP or an ARM of 0 (R140, R141).

The delays rest on one measure. `DelayRuns c j k` says that `TCNT` reaches the compare value in the `j`-th TICK from now
and that the whole delay is over in the `k`-th. ARM and a wrap program it through `programSegment`
(`programSegment_delayRuns`), every TICK takes 1 from `k` while the channel is enabled (`FiresIn.tick`), and the step
fires where `k` would reach 0. The silences rest on `Silent`: nothing enabled and nothing requested, which every input
but a non-zero ARM keeps. -/

namespace Sys2Proof.Proofs

open Sys2Proof.Machine Sys2Proof.Safety

/-! ### ARM, STOP and STEPDONE -/

theorem add_ofNat_eq_ofNat (b : Ticks) (n : Nat) : b + BitVec.ofNat 16 n = BitVec.ofNat 16 (b.toNat + n) := by
  rw [BitVec.ofNat_add, BitVec.ofNat_toNat, BitVec.setWidth_eq]

theorem sub_ofNat_eq_ofNat (b : Ticks) {n : Nat} (h : n ≤ 65536) :
    b - BitVec.ofNat 16 n = BitVec.ofNat 16 (b.toNat + 65536 - n) := by
  bv_omega

theorem arm_zero (c : Config) (r : Regs) :
    arm c 0#32 r = respond { r with divEn := true, stepEn := false, rem := 0#32, deferred := false } 0#32 := rfl

/-- ARM of 0 with no move open, nothing armed and the divider enabled writes what is there (R140). -/
theorem arm_zero_of_idle (c : Config) {r : Regs} (hrem : r.rem = 0#32) (hen : r.stepEn = false)
    (hdef : r.deferred = false) (hdiv : r.divEn = true) : arm c 0#32 r = respond r 0#32 := by
  rw [arm_zero, ← hdiv, ← hrem]
  cases r
  cases hen
  cases hdef
  rfl

theorem arm_of_ne_zero (c : Config) {d : BitVec 32} (h : d ≠ 0#32) (r : Regs) :
    arm c d r = respond
      { programSegment c (armBase r) (delayOf c d) { r with divEn := true, stepEn := false } with deferred := true }
      0#32 := by
  rw [arm, if_neg h]; rfl

/-- Settles O20: ARM of 0 by `arm_zero`; any other by `arm_of_ne_zero` and the branch of the split its clamped delay
takes. -/
theorem armProgramsTheFirstMatch : Obligations.ArmProgramsTheFirstMatch := by
  rintro d s d' base hd' rfl
  have hdelay : delayOf Config.hw d = d' := hd'.symm
  have hne (hlong : 65536 ≤ d') : d ≠ 0#32 := by rintro rfl; rw [hd'] at hlong; exact absurd hlong (by decide)
  have hbase : armBase s.regs = if s.regs.rem = 0#32 then s.regs.tcnt else s.regs.ocrS := rfl
  rw [exec_eq_runCommand, commandAt, runCommand, ← hbase]
  refine ⟨?_, fun hd hshort => ?_, fun hlong hshort => ?_, fun hlong => ?_⟩
  · rintro rfl
    rw [arm_zero]; rfl
  · rw [arm_of_ne_zero _ hd, hdelay, programSegment_direct _ _ _ _ hshort, add_ofNat_eq_ofNat]; rfl
  · rw [arm_of_ne_zero _ (hne hlong), hdelay, programSegment_early Config.hw _ _ _ hlong hshort,
      ← sub_ofNat_eq_ofNat _ (by decide)]; rfl
  · rw [arm_of_ne_zero _ (hne (by omega)), hdelay, programSegment_wrap _ _ _ _ hlong]; rfl

/-- Settles O21: the record function answers OK in every state; the divider's enable splits on the OPEN parameter. -/
theorem stopMasksTheStepChannel : Obligations.StopMasksTheStepChannel := by
  intro s
  have hdiv : (if Config.hw.stopDisablesDivider then false else s.regs.divEn) =
      (s.regs.divEn && !Config.hw.stopDisablesDivider) := by
    cases Config.hw.stopDisablesDivider <;> simp
  rw [exec_eq_runCommand, commandAt, runCommand, stop, hdiv]; rfl

theorem stepReturn_of_deferred {r : Regs} (h : r.deferred = true) :
    stepReturn r = { r with inStep := false, stepEn := true, deferred := false } := if_pos h

theorem stepReturn_of_not_deferred {r : Regs} (h : r.deferred = false) : stepReturn r = { r with inStep := false } :=
  if_neg (by simp [h])

theorem stepdone_of_inStep {r : Regs} (h : r.inStep = true) : stepdone r = respond (stepReturn r) 0#32 := if_pos h

theorem stepdone_of_not_inStep {r : Regs} (h : r.inStep = false) : stepdone r = raise .errState :=
  if_neg (by simp [h])

/-- Settles O22, by the two outcomes of STEPDONE and the two of the return. -/
theorem stepdoneEndsTheCallback : Obligations.StepdoneEndsTheCallback := by
  intro s
  rw [exec_eq_runCommand, commandAt, runCommand]
  refine ⟨fun hin => ?_, fun hin hdef => ?_, fun hin hdef => ?_⟩
  · rw [stepdone_of_not_inStep hin]; rfl
  · rw [stepdone_of_inStep hin, stepReturn_of_deferred hdef]; rfl
  · rw [stepdone_of_inStep hin, stepReturn_of_not_deferred hdef]; rfl

/-! ### The step channel in a TICK -/

/-- The step channel is enabled when a TICK tests it for a match: before the TICK, or by the TICK's commit (R136). -/
abbrev EnabledNextTick (r : Regs) : Prop := r.stepEn = true ∨ (r.deferred = true ∧ r.inStep = false)

section Match

variable {c : Config} {r : Regs}

theorem EnabledNextTick.committed (h : EnabledNextTick r) : (commitPart (countTick r)).stepEn = true := by
  rcases h with hen | ⟨hdef, hin⟩ <;> simp [*]

/-- A match with less than a wrap to run is the real step (R133). -/
theorem afterStep_eq_realStep (hen : EnabledNextTick r) (hmatch : r.tcnt + 1#16 = r.ocrS)
    (hrem : r.rem.toNat < 2 ^ 16) : afterStep c r = realStep (commitPart (countTick r)) := by
  rw [afterStep, stepPart, if_pos ⟨EnabledNextTick.committed hen, by simpa using hmatch⟩, stepMatch,
    if_pos (by simpa using hrem)]

/-- Any other match consumes a wrap and programs the rest from the compare value (R133, R135). -/
theorem afterStep_eq_wrap (hen : EnabledNextTick r) (hmatch : r.tcnt + 1#16 = r.ocrS)
    (hrem : 2 ^ 16 ≤ r.rem.toNat) :
    afterStep c r = (programSegment c r.ocrS (r.rem.toNat - 2 ^ 16) (commitPart (countTick r)), [.stepWrap]) := by
  rw [afterStep, stepPart, if_pos ⟨EnabledNextTick.committed hen, by simpa using hmatch⟩, stepMatch,
    if_neg (by simpa using hrem), intermediateWrap, commitPart_ocrS, commitPart_rem, countTick_ocrS, countTick_rem]

end Match

/-- Only the step part of a TICK fires a step: the parts after it emit none. -/
theorem tick_events_eq_append (c : Config) (r : Regs) :
    ∃ later, (tick c r).2 = (afterStep c r).2 ++ later ∧ .stepFire ∉ later := by
  refine ⟨_, (tick_events c r).trans (List.append_assoc ..), List.not_mem_append ?_ ?_⟩
  · rcases divPart_events c (afterStep c r).1 with h | h <;> simp [h]
  · rcases slotTick_events (afterDiv c r).1 with h | h <;> simp [h]

/-- Settles O30: without a match the commit is all that a TICK does to the channel (`tick_stepChannelQuiet`). -/
theorem commitEnablesThePendingChannel : Obligations.CommitEnablesThePendingChannel := by
  intro s rest hs hdef hin hne
  have q := tick_stepChannelQuiet Config.hw fun hmatch => hne hmatch.2
  exact ⟨_, step_tick s rest hs, by simp [q.stepEn, hdef, hin], by simp [q.deferred, hin],
    q.inStep.trans hin, q.ocrS, q.rem, q.noFire, q.noWrap⟩

/-- Settles O31: the step part is the real step (`afterStep_eq_realStep`), and the parts after it keep the channel. -/
theorem realStepFiresAndHoldsTheChannel : Obligations.RealStepFiresAndHoldsTheChannel := by
  intro s rest hs hen hmatch hrem
  have hstep := afterStep_eq_realStep (c := Config.hw) hen hmatch hrem
  obtain ⟨later, hevents, hlater⟩ := tick_events_eq_append Config.hw s.regs
  rw [hstep] at hevents
  refine ⟨_, later, step_tick s rest hs, hevents, hlater, ?_⟩
  simp [stepOut, tick_inStep, tick_stepEn, tick_deferred, tick_ocrS, tick_rem, hstep]

/-- Settles O32: the step part is the wrap (`afterStep_eq_wrap`), whose rest takes its branch of the split. -/
theorem intermediateWrapReprogramsTheRest : Obligations.IntermediateWrapReprogramsTheRest := by
  intro s rest r hs hen hmatch hrem
  have hstep := afterStep_eq_wrap (c := Config.hw) hen hmatch (by omega)
  have hleft : s.regs.rem.toNat - 2 ^ 16 = r := by omega
  have hfits : r < 2 ^ 32 := by have := s.regs.rem.isLt; omega
  obtain ⟨later, hevents, hlater⟩ := tick_events_eq_append Config.hw s.regs
  rw [hleft] at hstep
  rw [hstep] at hevents
  refine ⟨_, later, step_tick s rest hs, hevents, hlater, ?_, ?_, fun hshort => ?_, fun hlong hshort => ?_,
    fun hlong => ?_⟩ <;>
    simp only [tickTransition_regs, tick_stepEn, tick_inStep, tick_ocrS, tick_rem, hstep]
  · rw [programSegment_stepEn]; exact EnabledNextTick.committed hen
  · simp
  · rw [programSegment_direct _ _ _ _ hshort]
    exact ⟨add_ofNat_eq_ofNat .., Nat.mod_eq_of_lt hfits⟩
  · rw [programSegment_early Config.hw _ _ _ hlong hshort]
    exact ⟨sub_ofNat_eq_ofNat _ (by decide), Nat.mod_eq_of_lt (by change r + 10000 < 2 ^ 32; omega)⟩
  · rw [programSegment_wrap _ _ _ _ hlong]
    exact ⟨rfl, Nat.mod_eq_of_lt hfits⟩

/-! ### What the split programs -/

theorem firstMatchTicks_range {c : Config} (hc : c.Valid) {n : Nat} (hn : 0 < n) :
    0 < firstMatchTicks c n ∧ firstMatchTicks c n ≤ 2 ^ 16 ∧ firstMatchTicks c n ≤ n := by
  obtain ⟨-, -, -, -, hearly, -⟩ := hc
  unfold firstMatchTicks
  split_ifs <;> omega

section Split

variable {c : Config} (hc : c.Valid) (base : Ticks) {n : Nat} (r : Regs)
include hc

/-- The compare value lies `firstMatchTicks` after the base, in each branch of R131. -/
theorem programSegment_ocrS : (programSegment c base n r).ocrS = base + BitVec.ofNat 16 (firstMatchTicks c n) := by
  obtain ⟨-, -, -, -, hearly, -⟩ := hc
  rcases Nat.lt_or_ge n (2 ^ 16) with hdirect | hlong
  · rw [programSegment_direct c base n r hdirect, firstMatchTicks, if_pos hdirect]
  rcases Nat.lt_or_ge n (2 ^ 16 + c.early) with hshort | hwrap
  · rw [programSegment_early c base n r hlong hshort, firstMatchTicks, if_neg (by omega), if_pos hshort]
    bv_omega
  · rw [programSegment_wrap c base n r hwrap, firstMatchTicks, if_neg (by omega), if_neg (by omega)]
    exact (BitVec.add_zero base).symm

/-- What `REM` holds beyond one wrap is what is left of the delay after the first match (R138). -/
theorem firstMatchTicks_add_programSegment_rem (hn : n < 2 ^ 32) :
    firstMatchTicks c n + ((programSegment c base n r).rem.toNat - 2 ^ 16) = n := by
  obtain ⟨-, -, -, -, hearly, -⟩ := hc
  rcases Nat.lt_or_ge n (2 ^ 16) with hdirect | hlong
  · rw [programSegment_direct c base n r hdirect, BitVec.toNat_ofNat, Nat.mod_eq_of_lt hn, firstMatchTicks,
      if_pos hdirect]
    omega
  rcases Nat.lt_or_ge n (2 ^ 16 + c.early) with hshort | hwrap
  · rw [programSegment_early c base n r hlong hshort, BitVec.toNat_ofNat, Nat.mod_eq_of_lt (by omega),
      firstMatchTicks, if_neg (by omega), if_pos hshort]
    omega
  · rw [programSegment_wrap c base n r hwrap, BitVec.toNat_ofNat, Nat.mod_eq_of_lt hn, firstMatchTicks,
      if_neg (by omega), if_neg (by omega)]
    omega

end Split

/-! ### A delay that runs -/

/-- `TCNT` reaches the compare value in the `j`-th TICK from now, and the delay programmed is over in the `k`-th: what
`REM` holds beyond one wrap comes after that match (R138). -/
structure DelayRuns (c : Config) (j k : Nat) (r : Regs) : Prop where
  pos : 1 ≤ j
  le : j ≤ 2 ^ 16
  ocrS : r.ocrS = r.tcnt + BitVec.ofNat 16 j
  total : k = j + (r.rem.toNat - 2 ^ 16)
  slack : DelayHasSlack c r.rem

section Delay

variable {c : Config} {j k : Nat} {r r' : Regs}

theorem DelayRuns.of_eq (h : DelayRuns c j k r) (htcnt : r'.tcnt = r.tcnt) (hocrS : r'.ocrS = r.ocrS)
    (hrem : r'.rem = r.rem) : DelayRuns c j k r' := by
  obtain ⟨hpos, hle, hcompare, htotal, hslack⟩ := h
  exact ⟨hpos, hle, by rw [hocrS, htcnt, hcompare], by rw [hrem, htotal], by rw [hrem]; exact hslack⟩

theorem DelayRuns.match_iff (h : DelayRuns c j k r) : r.tcnt + 1#16 = r.ocrS ↔ j = 1 := by
  obtain ⟨hpos, hle, hcompare, -, -⟩ := h
  rw [hcompare]
  constructor
  · intro heq; bv_omega
  · rintro rfl; rfl

/-- The split made `a` TICKs after its base, before the first match it programs, sets a delay of `n` from the base
running. -/
theorem programSegment_delayRuns (hc : c.Valid) {base : Ticks} {n a : Nat} (hmin : min c.minDelay c.early ≤ n)
    (hn : n < 2 ^ 32) (htcnt : r.tcnt = base + BitVec.ofNat 16 a) (ha : a < firstMatchTicks c n) :
    DelayRuns c (firstMatchTicks c n - a) (n - a) (programSegment c base n r) := by
  have hpos : 0 < n := by obtain ⟨-, -, -, hdelay, hearly, -⟩ := hc; omega
  obtain ⟨-, hle, hlen⟩ := firstMatchTicks_range hc hpos
  have hleft := firstMatchTicks_add_programSegment_rem hc base r hn
  refine ⟨by omega, by omega, ?_, by omega, programSegment_slack hc base r hmin hn⟩
  rw [programSegment_ocrS hc, programSegment_tcnt, htcnt, BitVec.add_assoc, ← BitVec.ofNat_add,
    Nat.add_sub_of_le ha.le]

/-- A TICK that leaves the compare value and `REM` alone brings the match one TICK nearer. -/
theorem DelayRuns.tick_quiet (h : DelayRuns c j k r) (hj : 1 < j) (q : StepChannelQuiet r (tick c r)) :
    DelayRuns c (j - 1) (k - 1) (tick c r).1 := by
  obtain ⟨-, hle, hcompare, htotal, hslack⟩ := h
  refine ⟨by omega, by omega, ?_, by rw [q.rem]; omega, by rw [q.rem]; exact hslack⟩
  rw [q.ocrS, tick_tcnt, hcompare, BitVec.add_assoc]
  congr 1
  rw [← BitVec.ofNat_add, Nat.add_sub_of_le hj.le]

/-- The match of a wrap programs the rest of the delay, which runs on from there (R135). -/
theorem DelayRuns.tick_wrap (hc : c.Valid) (h : DelayRuns c j k r) (hj : j = 1) (hen : EnabledNextTick r)
    (hrem : 2 ^ 16 ≤ r.rem.toNat) : ∃ j', DelayRuns c j' (k - 1) (tick c r).1 := by
  have hmatch := h.match_iff.2 hj
  obtain ⟨-, -, -, htotal, -, hlong⟩ := h
  have hstep := afterStep_eq_wrap (c := c) hen hmatch hrem
  have hearly := hlong hrem
  have hpos : 0 < r.rem.toNat - 2 ^ 16 := by obtain ⟨-, -, -, -, hearly', -⟩ := hc; omega
  have hfits := r.rem.isLt
  have hruns := programSegment_delayRuns (r := commitPart (countTick r)) (base := r.ocrS) (a := 0) hc
    (n := r.rem.toNat - 2 ^ 16) (by omega) (by omega) (by simp [hmatch]) (firstMatchTicks_range hc hpos).1
  have hk : k - 1 = r.rem.toNat - 2 ^ 16 - 0 := by omega
  rw [hk]
  exact ⟨_, hruns.of_eq (by simp) (by rw [tick_ocrS, hstep]) (by rw [tick_rem, hstep])⟩

end Delay

/-! ### Silence, and a step on its way -/

/-- Nothing is enabled and nothing is requested. -/
structure Silent (r : Regs) : Prop where
  stepEn : r.stepEn = false
  deferred : r.deferred = false

/-- The step channel is enabled for the next TICK, and its delay is over in the `k`-th TICK from now. -/
structure FiresIn (c : Config) (k : Nat) (r : Regs) : Prop where
  enabled : EnabledNextTick r
  runs : ∃ j, DelayRuns c j k r

section Tick

variable {c : Config} {k : Nat} {r r' : Regs}

theorem Silent.of_eq (h : Silent r) (hen : r'.stepEn = r.stepEn) (hdef : r'.deferred = r.deferred) : Silent r' :=
  ⟨hen.trans h.stepEn, hdef.trans h.deferred⟩

theorem Silent.tick (h : Silent r) : Silent (tick c r).1 ∧ .stepFire ∉ (tick c r).2 := by
  obtain ⟨hen, hdef⟩ := h
  have q := tick_stepChannelQuiet c (r := r) (by simp [hen, hdef])
  exact ⟨⟨by simp [q.stepEn, hen, hdef], by simp [q.deferred, hdef]⟩, q.noFire⟩

/-- A channel that is enabled stays so through a TICK that does not fire it. -/
theorem StepChannelQuiet.enabledNextTick {res : EventResult} (q : StepChannelQuiet r res) (h : EnabledNextTick r) :
    EnabledNextTick res.1 := by
  refine .inl (q.stepEn.trans ?_)
  rcases h with hen | ⟨hdef, hin⟩ <;> simp [*]

/-- A TICK of an enabled channel fires the step when its delay is over, and takes 1 from the delay before that. -/
theorem FiresIn.tick (hc : c.Valid) (h : FiresIn c k r) :
    (k = 1 ∧ Silent (tick c r).1 ∧ (tick c r).2.count .stepFire = 1) ∨
    (1 < k ∧ FiresIn c (k - 1) (tick c r).1 ∧ .stepFire ∉ (tick c r).2) := by
  obtain ⟨hen, j, hruns⟩ := h
  have ⟨hpos, _, _, htotal, _, hslack⟩ := hruns
  by_cases hj : j = 1
  · have hmatch := hruns.match_iff.2 hj
    obtain ⟨later, hevents, hlater⟩ := tick_events_eq_append c r
    rcases Nat.lt_or_ge r.rem.toNat (2 ^ 16) with hrem | hrem
    · have hstep := afterStep_eq_realStep (c := c) hen hmatch hrem
      refine .inl ⟨by omega, ⟨by rw [tick_stepEn, hstep]; rfl, by rw [tick_deferred, hstep]; rfl⟩, ?_⟩
      rw [hevents, hstep, List.count_append, List.count_eq_zero_of_not_mem hlater]; rfl
    · have hstep := afterStep_eq_wrap (c := c) hen hmatch hrem
      have hearly : 0 < c.early := by obtain ⟨-, -, -, -, hearly, -⟩ := hc; exact hearly.1
      have hlong := hslack hrem
      refine .inr ⟨by omega, ⟨.inl ?_, hruns.tick_wrap hc hj hen hrem⟩, ?_⟩
      · rw [tick_stepEn, hstep, programSegment_stepEn]; exact EnabledNextTick.committed hen
      · rw [stepFire_mem_tick, hstep]; simp
  · have q := tick_stepChannelQuiet c fun hmatch => hj (hruns.match_iff.1 hmatch.2)
    exact .inr ⟨by omega, ⟨q.enabledNextTick hen, _, hruns.tick_quiet (by omega) q⟩, q.noFire⟩

end Tick

/-! ### The scheduler in one transition -/

/-- The elements that decide when the step channel fires are as they were. -/
structure SchedKept (r r' : Regs) : Prop where
  tcnt : r'.tcnt = r.tcnt
  ocrS : r'.ocrS = r.ocrS
  rem : r'.rem = r.rem
  stepEn : r'.stepEn = r.stepEn
  deferred : r'.deferred = r.deferred
  inStep : r'.inStep = r.inStep

theorem SchedKept.refl (r : Regs) : SchedKept r r := ⟨rfl, rfl, rfl, rfl, rfl, rfl⟩

section Kept

variable {c : Config} {k : Nat} {r r' : Regs}

theorem SchedKept.silent (h : SchedKept r r') (hsilent : Silent r) : Silent r' := hsilent.of_eq h.stepEn h.deferred

theorem SchedKept.delayRuns {j : Nat} (h : SchedKept r r') (hruns : DelayRuns c j k r) : DelayRuns c j k r' :=
  hruns.of_eq h.tcnt h.ocrS h.rem

theorem SchedKept.firesIn (h : SchedKept r r') (hfires : FiresIn c k r) : FiresIn c k r' := by
  obtain ⟨hen, j, hruns⟩ := hfires
  refine ⟨?_, j, h.delayRuns hruns⟩
  rwa [EnabledNextTick, h.stepEn, h.deferred, h.inStep]

theorem stepReturn_silent (h : Silent r) : Silent (stepReturn r) := ⟨by simp [h.stepEn, h.deferred], by simp⟩

/-- The return from the callback enables the channel that an ARM requested, or leaves it enabled (R137). -/
theorem stepReturn_firesIn {j : Nat} (h : r.deferred = true ∨ r.stepEn = true) (hruns : DelayRuns c j k r) :
    FiresIn c k (stepReturn r) :=
  ⟨.inl (by simpa using h), j, hruns.of_eq (by simp) (by simp) (by simp)⟩

theorem FiresIn.stepReturn (h : FiresIn c k r) : FiresIn c k (stepReturn r) := by
  obtain ⟨hen, j, hruns⟩ := h
  exact stepReturn_firesIn (hen.symm.imp_left And.left) hruns

/-- A command other than ARM, STOP and STEPDONE leaves the scheduler alone. -/
theorem commandAt_schedKept {i : Instr} {data : BitVec 32} (hok : commandAt c i r = .ok (r', data))
    (harm : ∀ d, i ≠ .arm d) (hstop : i ≠ .stop) (hdone : i ≠ .stepdone) : SchedKept r r' := by
  have hframe := commandAt_frame hok
  obtain ⟨hocrS, hrem⟩ := hframe.delay harm
  obtain ⟨hen, hdef⟩ := hframe.stepEnable harm hstop hdone
  exact ⟨hframe.time, hocrS, hrem, hen, hdef, hframe.inStep hdone⟩

/-- No command but a non-zero ARM ends the silence (R140, R141). -/
theorem commandAt_silent {i : Instr} {data : BitVec 32} (hok : commandAt c i r = .ok (r', data))
    (harm : ∀ d, i = .arm d → d = 0#32) (h : Silent r) : Silent r' := by
  cases i with
  | arm d =>
    rcases arm_ok hok with ⟨-, rfl⟩ | ⟨hd, -⟩
    · exact ⟨rfl, rfl⟩
    · exact absurd (harm d rfl) hd
  | stop => obtain rfl := stop_ok hok; exact ⟨rfl, rfl⟩
  | stepdone => obtain ⟨-, rfl⟩ := stepdone_ok hok; exact stepReturn_silent h
  | _ => exact (commandAt_schedKept hok nofun nofun nofun).silent h

end Kept

section Transition

variable {c : Config} {s : State} {x : Input} {rest : List Input}

/-- The transition of a command's word is the command's (R84). -/
theorem stepAt_encode {i : Instr} (hs : s.inputs = .command (encode i) :: rest) :
    stepAt c s = runCommand (commandAt c i) { s with inputs := rest } := by
  rw [stepAt_command c s _ rest hs, commandWordAt_of_decode_ok c (decodeOfEncode i)]

theorem requestsStep_encode (i : Instr) :
    requestsStep (.command (encode i)) = false ↔ ∀ d, i = .arm d → d = 0#32 := by
  rw [requestsStep, decodeOfEncode i]
  cases i <;> simp

theorem disturbsStep_encode (i : Instr) :
    disturbsStep (.command (encode i)) = false ↔ (∀ d, i ≠ .arm d) ∧ i ≠ .stop := by
  rw [disturbsStep, decodeOfEncode i]
  cases i <;> simp

/-- An input that does not disturb the step does not request one either. -/
theorem requestsStep_of_disturbsStep (hx : disturbsStep x = false) : requestsStep x = false := by
  cases x with
  | tick => rfl
  | reset => rfl
  | command w =>
    cases hd : decode w with
    | error e => rw [requestsStep, hd]
    | ok i =>
      obtain rfl := decode_eq_ok_iff.1 hd
      exact (requestsStep_encode i).2 fun d hi => absurd hi (((disturbsStep_encode i).1 hx).1 d)

theorem stepAt_command_events {w : CommandWord} (hs : s.inputs = .command w :: rest) : (stepAt c s).events = [] := by
  rw [stepAt_command c s w rest hs]; exact complete_events ..

/-- A word leaves the record, or is the word of a command that answers OK with the new one (R13, R84). -/
theorem stepAt_command_cases {w : CommandWord} (hs : s.inputs = .command w :: rest) :
    (stepAt c s).regs = s.regs ∨
    ∃ i data, w = encode i ∧ commandAt c i s.regs = .ok ((stepAt c s).regs, data) := by
  cases hd : decode w with
  | error e =>
    rw [stepAt_command c s w rest hs, commandWordAt_of_decode_error c hd]
    exact .inl rfl
  | ok i =>
    obtain rfl := decode_eq_ok_iff.1 hd
    rw [stepAt_encode hs]
    rcases runCommand_cases (commandAt c i) { s with inputs := rest } with ⟨r, data, hok, hrun⟩ | ⟨e, -, hrun⟩ <;>
      rw [hrun]
    · exact .inr ⟨i, data, rfl, hok⟩
    · exact .inl rfl

/-- Silence lasts through every transition but a non-zero ARM, and none of them fires a step (R140, R141). -/
theorem stepAt_silent (hs : s.inputs = x :: rest) (hx : requestsStep x = false) (h : Silent s.regs) :
    Silent (stepAt c s).regs ∧ .stepFire ∉ (stepAt c s).events := by
  cases x with
  | tick => rw [stepAt_tick c s rest hs]; exact h.tick
  | reset => rw [stepAt_reset c s rest hs]; exact ⟨⟨rfl, rfl⟩, List.not_mem_nil⟩
  | command w =>
    rw [stepAt_command_events hs]
    refine ⟨?_, List.not_mem_nil⟩
    rcases stepAt_command_cases (c := c) hs with hsame | ⟨i, data, rfl, hok⟩
    · rw [hsame]; exact h
    · exact commandAt_silent hok ((requestsStep_encode i).1 hx) h

/-- What an input that is no ARM, STOP or reset does to the scheduler: a TICK, the return from a callback in progress,
or nothing. -/
theorem stepAt_sched_cases (hs : s.inputs = x :: rest) (hx : disturbsStep x = false) :
    (x = .tick ∧ (stepAt c s).regs = (tick c s.regs).1 ∧ (stepAt c s).events = (tick c s.regs).2) ∨
    (x = .command (encode .stepdone) ∧ (stepAt c s).regs = stepReturn s.regs) ∨
    (∃ w, x = .command w ∧ SchedKept s.regs (stepAt c s).regs) := by
  cases x with
  | tick => rw [stepAt_tick c s rest hs]; exact .inl ⟨rfl, rfl, rfl⟩
  | reset => cases hx
  | command w =>
    refine .inr ?_
    rcases stepAt_command_cases (c := c) hs with hsame | ⟨i, data, rfl, hok⟩
    · rw [hsame]; exact .inr ⟨w, rfl, .refl _⟩
    · obtain ⟨harm, hstop⟩ := (disturbsStep_encode i).1 hx
      by_cases hdone : i = .stepdone
      · subst hdone
        exact .inl ⟨rfl, (stepdone_ok hok).2⟩
      · exact .inr ⟨_, rfl, commandAt_schedKept hok harm hstop hdone⟩

end Transition

/-! ### Runs -/

theorem count_eventsOfRun_succ (n : Nat) (s : State) (e : Event) :
    (eventsOfRun (n + 1) s).count e =
      (stepAt Config.hw s).events.count e + (eventsOfRun n (stepAt Config.hw s)).count e := by
  rw [eventsOfRun_succ, List.count_append]

/-- A command emits nothing, so a run that begins with one has the events of the rest (R43). -/
theorem eventsOfRun_command (n : Nat) {s : State} {w : CommandWord} {rest : List Input}
    (hs : s.inputs = .command w :: rest) : eventsOfRun (n + 1) s = eventsOfRun n (stepAt Config.hw s) := by
  rw [eventsOfRun_succ, stepAt_command_events hs, List.nil_append]

theorem stepAt_hw_inputs_cons {s : State} {x : Input} {xs rest : List Input} (hs : s.inputs = x :: xs ++ rest) :
    (stepAt Config.hw s).inputs = xs ++ rest := by
  rw [stepAt_hw_inputs, hs]; rfl

/-- From silence no step fires until a non-zero ARM (R140, R141). -/
theorem stepFire_not_mem_of_silent (xs : List Input) {s : State} {rest : List Input} (hs : s.inputs = xs ++ rest)
    (hxs : ∀ x ∈ xs, requestsStep x = false) (h : Silent s.regs) : .stepFire ∉ eventsOfRun xs.length s := by
  induction xs generalizing s with
  | nil => exact List.not_mem_nil
  | cons x xs ih =>
    rw [List.forall_mem_cons] at hxs
    obtain ⟨hsilent, hnone⟩ := stepAt_silent (c := Config.hw) hs hxs.1 h
    rw [List.length_cons, eventsOfRun_succ]
    exact List.not_mem_append hnone (ih (stepAt_hw_inputs_cons hs) hxs.2 hsilent)

/-- An enabled channel whose delay is over in the `k`-th TICK fires in that TICK, and once (R138). -/
theorem count_stepFire_of_firesIn (xs : List Input) {s : State} {rest : List Input} {k : Nat}
    (hs : s.inputs = xs ++ rest) (hxs : ∀ x ∈ xs, disturbsStep x = false) (h : FiresIn Config.hw k s.regs) :
    (eventsOfRun xs.length s).count .stepFire = if tickCount xs < k then 0 else 1 := by
  induction xs generalizing s k with
  | nil =>
    obtain ⟨-, j, hruns⟩ := h
    have hpos : 0 < k := by have := hruns.pos; have := hruns.total; omega
    exact (if_pos hpos).symm
  | cons x xs ih =>
    rw [List.forall_mem_cons] at hxs
    have hinputs := stepAt_hw_inputs_cons hs
    rw [List.length_cons]
    rcases stepAt_sched_cases (c := Config.hw) hs hxs.1 with ⟨rfl, hregs, hevents⟩ | ⟨rfl, hregs⟩ | ⟨w, rfl, hkept⟩
    · rw [tickCount_tick_cons, count_eventsOfRun_succ, hevents]
      rcases h.tick hw_valid with ⟨rfl, hsilent, hone⟩ | ⟨hk, hfires, hnone⟩
      · have hrest : .stepFire ∉ eventsOfRun xs.length (stepAt Config.hw s) :=
          stepFire_not_mem_of_silent xs hinputs (fun x hx => requestsStep_of_disturbsStep (hxs.2 x hx))
            (hregs ▸ hsilent)
        rw [hone, List.count_eq_zero_of_not_mem hrest, if_neg (by omega)]
      · rw [List.count_eq_zero_of_not_mem hnone, ih hinputs hxs.2 (hregs ▸ hfires), Nat.zero_add]
        exact if_congr (by omega) rfl rfl
    · rw [tickCount_command_cons, eventsOfRun_command _ hs]
      exact ih hinputs hxs.2 (hregs ▸ h.stepReturn)
    · rw [tickCount_command_cons, eventsOfRun_command _ hs]
      exact ih hinputs hxs.2 (hkept.firesIn h)

/-- A callback in progress holds the request of an ARM (R136). -/
structure RequestHeld (r : Regs) : Prop where
  stepEn : r.stepEn = false
  deferred : r.deferred = true
  inStep : r.inStep = true

/-- A TICK in the callback leaves the request held. -/
theorem RequestHeld.tick (c : Config) {r : Regs} (h : RequestHeld r) :
    StepChannelQuiet r (tick c r) ∧ RequestHeld (tick c r).1 := by
  obtain ⟨hen, hdef, hin⟩ := h
  have q := tick_stepChannelQuiet c (r := r) (by simp [hen, hin])
  exact ⟨q, by simp [q.stepEn, hen, hin], by simp [q.deferred, hdef, hin], q.inStep.trans hin⟩

theorem SchedKept.requestHeld {r r' : Regs} (h : SchedKept r r') (hheld : RequestHeld r) : RequestHeld r' :=
  ⟨h.stepEn.trans hheld.stepEn, h.deferred.trans hheld.deferred, h.inStep.trans hheld.inStep⟩

/-- The STEPDONE that ends the callback commits the request, and the delay runs on. -/
theorem count_stepFire_of_stepdone (xs : List Input) {s : State} {rest : List Input} {j k : Nat}
    (hs : s.inputs = .command (encode .stepdone) :: xs ++ rest) (hxs : ∀ x ∈ xs, disturbsStep x = false)
    (hheld : RequestHeld s.regs) (hruns : DelayRuns Config.hw j k s.regs) :
    (eventsOfRun (xs.length + 1) s).count .stepFire = if tickCount xs < k then 0 else 1 := by
  have hfires : FiresIn Config.hw k (stepAt Config.hw s).regs := by
    rw [stepAt_encode (rest := xs ++ rest) hs, runCommand, commandAt, stepdone_of_inStep hheld.inStep]
    exact stepReturn_firesIn (.inl hheld.deferred) hruns
  rw [eventsOfRun_command _ hs]
  exact count_stepFire_of_firesIn xs (stepAt_hw_inputs_cons hs) hxs hfires

/-- A request that a STEPDONE commits before the first match fires as if it had been committed at once (R138, R139). -/
theorem count_stepFire_of_requestHeld (ys : List Input) {s : State} {zs rest : List Input} {j k : Nat}
    (hs : s.inputs = ys ++ .command (encode .stepdone) :: zs ++ rest)
    (hxs : ∀ x ∈ ys ++ .command (encode .stepdone) :: zs, disturbsStep x = false) (hheld : RequestHeld s.regs)
    (hruns : DelayRuns Config.hw j k s.regs) (hin : tickCount ys < j) :
    (eventsOfRun (ys ++ .command (encode .stepdone) :: zs).length s).count .stepFire =
      if tickCount (ys ++ .command (encode .stepdone) :: zs) < k then 0 else 1 := by
  induction ys generalizing s j k with
  | nil =>
    rw [List.nil_append, tickCount_command_cons]
    exact count_stepFire_of_stepdone zs hs (List.forall_mem_cons.1 hxs).2 hheld hruns
  | cons y ys ih =>
    rw [List.cons_append] at hs hxs ⊢
    rw [List.forall_mem_cons] at hxs
    have hinputs := stepAt_hw_inputs_cons hs
    rcases stepAt_sched_cases (c := Config.hw) hs hxs.1 with ⟨rfl, hregs, hevents⟩ | ⟨rfl, -⟩ | ⟨w, rfl, hkept⟩
    · rw [tickCount_tick_cons] at hin ⊢
      obtain ⟨q, hheld'⟩ := hheld.tick Config.hw
      have hruns' := hruns.tick_quiet (by omega) q
      rw [← hregs] at hheld' hruns'
      rw [List.length_cons, count_eventsOfRun_succ, hevents, List.count_eq_zero_of_not_mem q.noFire,
        ih hinputs hxs.2 hheld' hruns' (by omega), Nat.zero_add]
      exact if_congr (by omega) rfl rfl
    · rw [tickCount_command_cons]
      exact count_stepFire_of_stepdone _ hs hxs.2 hheld hruns
    · rw [tickCount_command_cons] at hin ⊢
      rw [List.length_cons, eventsOfRun_command _ hs]
      exact ih hinputs hxs.2 (hkept.requestHeld hheld) (hkept.delayRuns hruns) hin

/-! ### The runs after an ARM -/

/-- A non-zero ARM sent `a` TICKs after its baseline, before the first match it programs, leaves a request and the
delay running (R130, R131). -/
theorem stepAt_arm {s : State} {d : BitVec 32} {rest : List Input} {a : Nat}
    (hs : s.inputs = .command (encode (.arm d)) :: rest) (hd : d ≠ 0#32)
    (htcnt : s.regs.tcnt = armBase s.regs + BitVec.ofNat 16 a)
    (ha : a < firstMatchTicks Config.hw (max d.toNat 17)) :
    (stepAt Config.hw s).regs.stepEn = false ∧ (stepAt Config.hw s).regs.deferred = true ∧
      (stepAt Config.hw s).regs.inStep = s.regs.inStep ∧
      DelayRuns Config.hw (firstMatchTicks Config.hw (max d.toNat 17) - a) (max d.toNat 17 - a)
        (stepAt Config.hw s).regs := by
  have hruns := programSegment_delayRuns (r := { s.regs with divEn := true, stepEn := false }) hw_valid
    (le_trans (min_le_left ..) (le_max_right d.toNat 17)) (max_lt d.isLt (by decide)) htcnt ha
  rw [stepAt_encode hs, runCommand, commandAt, arm_of_ne_zero _ hd]
  exact ⟨programSegment_stepEn .., rfl, programSegment_inStep .., hruns.of_eq rfl rfl rfl⟩

/-- An ARM sent `a` TICKs after its baseline and committed in time fires `d'` TICKs after the baseline, and once: the
common form of R138, with the ARM itself as the baseline, and of R139, with the previous step. -/
theorem arm_fires_at_its_delay {s : State} {d : BitVec 32} {a : Nat} {xs rest : List Input}
    (hs : s.inputs = .command (encode (.arm d)) :: (xs ++ rest)) (hd : d ≠ 0#32)
    (htcnt : s.regs.tcnt = armBase s.regs + BitVec.ofNat 16 a) (hxs : ∀ x ∈ xs, disturbsStep x = false)
    (hcommit : (s.regs.inStep = false ∧ a < firstMatchTicks Config.hw (max d.toNat 17)) ∨
      ∃ ys zs, xs = ys ++ .command (encode .stepdone) :: zs ∧
        a + tickCount ys < firstMatchTicks Config.hw (max d.toNat 17)) :
    RunsOn (xs.length + 1) s ∧
      (eventsOfRun (xs.length + 1) s).count .stepFire = if a + tickCount xs < max d.toNat 17 then 0 else 1 := by
  refine ⟨⟨_, run_eq_runAt _ s⟩, ?_⟩
  have ha : a < firstMatchTicks Config.hw (max d.toNat 17) := by
    rcases hcommit with ⟨-, ha⟩ | ⟨ys, zs, -, ha⟩ <;> omega
  obtain ⟨hen, hdef, hin, hruns⟩ := stepAt_arm hs hd htcnt ha
  have hinputs : (stepAt Config.hw s).inputs = xs ++ rest := stepAt_hw_inputs_cons (xs := xs) hs
  have hcount : (eventsOfRun xs.length (stepAt Config.hw s)).count .stepFire =
      if tickCount xs < max d.toNat 17 - a then 0 else 1 := by
    cases hcallback : s.regs.inStep with
    | false => exact count_stepFire_of_firesIn xs hinputs hxs ⟨.inr ⟨hdef, hin.trans hcallback⟩, _, hruns⟩
    | true =>
      obtain ⟨hfree, -⟩ | ⟨ys, zs, rfl, hdone⟩ := hcommit
      · exact absurd (hcallback.symm.trans hfree) (by decide)
      · exact count_stepFire_of_requestHeld ys hinputs hxs ⟨hen, hdef, hin.trans hcallback⟩ hruns (by omega)
  rw [eventsOfRun_command _ hs, hcount]
  exact if_congr (by omega) rfl rfl

/-- Settles O48: the baseline of a new move is `TCNT` at the ARM itself (`arm_fires_at_its_delay` at `a = 0`). -/
theorem newMoveFiresAtItsDelay : Obligations.NewMoveFiresAtItsDelay := by
  intro s d xs rest hs hd hrem hxs hcommit
  have hbase : s.regs.tcnt = armBase s.regs + BitVec.ofNat 16 0 := by
    rw [armBase, if_pos hrem]; exact (BitVec.add_zero _).symm
  have hfirst := (firstMatchTicks_range hw_valid (n := max d.toNat 17) (by omega)).1
  have h := arm_fires_at_its_delay hs hd hbase hxs
    (hcommit.imp (fun hin => ⟨hin, hfirst⟩) fun ⟨ys, zs, hxs', hdone⟩ => ⟨ys, zs, hxs', by omega⟩)
  rwa [Nat.zero_add] at h

/-- Settles O49: the baseline of an open move is `OCR_S`, the deadline of the previous step
(`arm_fires_at_its_delay`). -/
theorem chainedStepKeepsTheCadence : Obligations.ChainedStepKeepsTheCadence := by
  intro s d a xs rest hs hd hrem htcnt hxs hcommit
  have hbase : armBase s.regs = s.regs.ocrS := if_neg hrem
  exact arm_fires_at_its_delay hs hd (hbase ▸ htcnt) hxs hcommit

/-! ### The runs after a STOP or an ARM of 0 -/

/-- A command that silences the step channel keeps it so for as long as no non-zero ARM follows (R140, R141). -/
theorem silencing_command_run {s : State} {w : CommandWord} {rest : List Input} {n : Nat}
    (hs : s.inputs = .command w :: rest) (hsilent : Silent (stepAt Config.hw s).regs) (hn : n ≤ rest.length)
    (hrest : ∀ x ∈ rest.take n, requestsStep x = false) :
    ∃ t, Host.Core.run Sys2Proof.core (n + 1) s = .next t ∧ .stepFire ∉ eventsOfRun (n + 1) s := by
  refine ⟨_, run_eq_runAt _ s, ?_⟩
  have hinputs : (stepAt Config.hw s).inputs = rest.take n ++ rest.drop n := by
    rw [stepAt_hw_inputs, hs, List.take_append_drop]; rfl
  have hrun := stepFire_not_mem_of_silent _ hinputs hrest hsilent
  rw [List.length_take_of_le hn] at hrun
  rwa [eventsOfRun_command _ hs]

/-- Settles O51: STOP clears the enable and the request, whatever the state (`silencing_command_run`). -/
theorem stopSilencesTheStepChannel : Obligations.StopSilencesTheStepChannel := by
  intro s rest n hs hn hrest
  refine silencing_command_run hs ?_ hn hrest
  rw [stepAt_encode hs]
  exact ⟨rfl, rfl⟩

/-- Settles O52: ARM of 0 clears the enable and the request too, and when idle it answers with the
record it found (`arm_zero_of_idle`). -/
theorem cancelSilencesTheStepChannel : Obligations.CancelSilencesTheStepChannel := by
  intro s rest n hs
  refine ⟨fun hn hrest => silencing_command_run hs ?_ hn hrest, fun hrem hen hdef hdiv => ?_⟩
  · rw [stepAt_encode hs]
    exact ⟨rfl, rfl⟩
  · refine ⟨_, stepIsTheConfiguredStep s, ?_⟩
    rw [stepAt_encode hs, runCommand, commandAt, arm_zero_of_idle _ hrem hen hdef hdiv]; rfl

end Sys2Proof.Proofs
end

section
/-! PROOFS. The statements of spec/43_tick_divider.md: TSTCLR (R165, R166), the divider's match inside a TICK (R160,
R161), and the runs: the distance to the next divider event, the period between two of them, and the time the counters
and flags keep from reset (R162).

The runs rest on one measure. `DividerIn c k` says that the divider is enabled and its next event comes in the `k`-th
TICK from now. A TICK takes 1 from `k`, and where `k` would reach 0 the event comes and re-arms at `DIV_PERIOD`
(`DividerIn.tick`); a command leaves `TCNT` and `OCR_D`, so it leaves `k` too while `DIV_EN` stays 1. -/

namespace Sys2Proof.Proofs

open Sys2Proof.Machine Sys2Proof.Safety

/-! ### TSTCLR -/

theorem tstclr_of_refused {f : BitVec 8} (h : 2 < f.toNat) (r : Regs) : tstclr f r = raise .errRange := by
  rw [tstclr, (flagOf_eq_none f).2 h]

theorem tstclr_of_flag {f : BitVec 8} {flag : FlagName} (h : flagOf f = some flag) (r : Regs) :
    tstclr f r = respond (clearFlag flag r) ((BitVec.ofBool (readFlag flag r)).setWidth 32) := by
  rw [tstclr, h]

@[simp] theorem readFlag_clearFlag (flag : FlagName) (r : Regs) : readFlag flag (clearFlag flag r) = false := by
  cases flag <;> rfl

@[simp] theorem clearFlag_clearFlag (flag : FlagName) (r : Regs) :
    clearFlag flag (clearFlag flag r) = clearFlag flag r := by
  cases flag <;> rfl

theorem responseWord_flag (b : Bool) : responseWord .ok ((BitVec.ofBool b).setWidth 32) = BitVec.ofNat 40 b.toNat := by
  cases b <;> rfl

/-- A TSTCLR of a flag answers OK with the flag and clears it (R165). -/
theorem exec_tstclr_of_flag {f : BitVec 8} {flag : FlagName} (h : flagOf f = some flag) (s : State) :
    exec (.tstclr f) s = .next { s with
      regs := clearFlag flag s.regs
      response := some (BitVec.ofNat 40 (readFlag flag s.regs).toNat)
      events := [] } := by
  rw [exec_eq_runCommand, commandAt, runCommand, tstclr_of_flag h, respond, complete, responseWord_flag]

/-- Settles O23: a number above 2 is refused (`tstclr_of_refused`), and each of the others names its flag
(`exec_tstclr_of_flag`). -/
theorem tstclrReadsAndClearsOneFlag : Obligations.TstclrReadsAndClearsOneFlag := by
  intro f s
  refine ⟨fun hrefused => ?_, ?_, ?_, ?_⟩
  · rw [exec_eq_runCommand, commandAt, runCommand, tstclr_of_refused hrefused]; rfl
  · rintro rfl; exact exec_tstclr_of_flag (flag := .f10ms) rfl s
  · rintro rfl; exact exec_tstclr_of_flag (flag := .f250ms) rfl s
  · rintro rfl; exact exec_tstclr_of_flag (flag := .f1s) rfl s

/-- Settles O24: the first TSTCLR leaves the flag at 0, so the second reads 0 and clears nothing. -/
theorem tstclrTwiceLeavesNoBacklog : Obligations.TstclrTwiceLeavesNoBacklog := by
  intro f s hf
  obtain ⟨flag, hflag⟩ := Option.ne_none_iff_exists'.1 (mt (flagOf_eq_none f).1 (Nat.not_lt.2 hf))
  exact ⟨_, _, exec_tstclr_of_flag hflag s, exec_tstclr_of_flag hflag _, clearFlag_clearFlag .., by simp⟩

/-! ### The cascade -/

section Stages

variable {c : Config} {r : Regs} {cnt : BitVec 8} {threshold : Nat}

theorem countStage_of_lt (h : cnt.toNat + 1 < threshold) : countStage cnt threshold = (cnt + 1#8, false) := by
  rcases countStage_spec cnt threshold (by omega) with ⟨heq, -⟩ | ⟨-, hs⟩
  · omega
  · exact hs

theorem countStage_of_eq (h : cnt.toNat + 1 = threshold) : countStage cnt threshold = (0#8, true) := by
  rcases countStage_spec cnt threshold (by omega) with ⟨-, hs⟩ | ⟨hlt, -⟩
  · exact hs
  · omega

/-! Each stage counts below its threshold, and at it sets its flag and goes on with the next stage (R161). -/

theorem divStageMs_of_lt (h : r.cntMs.toNat + 1 < c.divT1) :
    divStageMs c r = { r with cntMs := r.cntMs + 1#8 } := by
  simp [divStageMs, countStage_of_lt h]

theorem divStageMs_of_eq (h : r.cntMs.toNat + 1 = c.divT1) :
    divStageMs c r = divStage10 c { r with cntMs := 0#8, f10ms := true } := by
  simp [divStageMs, countStage_of_eq h]

theorem divStage10_of_lt (h : r.cnt10ms.toNat + 1 < c.divT2) :
    divStage10 c r = { r with cnt10ms := r.cnt10ms + 1#8 } := by
  simp [divStage10, countStage_of_lt h]

theorem divStage10_of_eq (h : r.cnt10ms.toNat + 1 = c.divT2) :
    divStage10 c r = divStage250 c { r with cnt10ms := 0#8, f250ms := true } := by
  simp [divStage10, countStage_of_eq h]

theorem divStage250_of_lt (h : r.cnt250ms.toNat + 1 < c.divT3) :
    divStage250 c r = { r with cnt250ms := r.cnt250ms + 1#8 } := by
  simp [divStage250, countStage_of_lt h]

theorem divStage250_of_eq (h : r.cnt250ms.toNat + 1 = c.divT3) :
    divStage250 c r = { r with cnt250ms := 0#8, f1s := true } := by
  simp [divStage250, countStage_of_eq h]

end Stages

/-- From `r` to `r'` the counters count one base period more, the flags of the periods that end with it are set and none
is cleared (R161). -/
structure PeriodCounted (r r' : Regs) : Prop where
  cntMs : r'.cntMs.toNat = (r.cntMs.toNat + 1) % 10
  cnt10ms : r'.cnt10ms.toNat = (r.cnt10ms.toNat + (r.cntMs.toNat + 1) / 10) % 25
  cnt250ms : r'.cnt250ms.toNat = (r.cnt250ms.toNat + (r.cnt10ms.toNat + (r.cntMs.toNat + 1) / 10) / 25) % 4
  f10ms : r'.f10ms = (r.f10ms || decide (r.cntMs.toNat = 9))
  f250ms : r'.f250ms = (r.f250ms || decide (r.cntMs.toNat = 9 ∧ r.cnt10ms.toNat = 24))
  f1s : r'.f1s = (r.f1s || decide (r.cntMs.toNat = 9 ∧ r.cnt10ms.toNat = 24 ∧ r.cnt250ms.toNat = 3))

/-- The cascade counts one period: the four cases are the stage at which the carry stops, if any. -/
theorem divStageMs_periodCounted {r : Regs} (h : DividerCountersLow Config.hw r) :
    PeriodCounted r (divStageMs Config.hw r) := by
  obtain ⟨hms, h10, h250⟩ := h
  change _ < 10 at hms
  change _ < 25 at h10
  change _ < 4 at h250
  rcases Nat.lt_or_eq_of_le hms with hms | hms
  · rw [divStageMs_of_lt hms]
    constructor <;> grind
  rw [divStageMs_of_eq hms]
  rcases Nat.lt_or_eq_of_le h10 with h10 | h10
  · rw [divStage10_of_lt h10]
    constructor <;> grind
  rw [divStage10_of_eq h10]
  rcases Nat.lt_or_eq_of_le h250 with h250 | h250
  · rw [divStage250_of_lt h250]
    constructor <;> grind
  · rw [divStage250_of_eq h250]
    constructor <;> grind

/-! ### The match in a TICK -/

section Match

variable {c : Config} {r : Regs}

theorem afterDiv_eq_divMatch (hen : r.divEn = true) (hmatch : r.tcnt + 1#16 = r.ocrD) :
    afterDiv c r = divMatch c (afterStep c r).1 := if_pos ⟨by simpa using hen, by simpa using hmatch⟩

/-- A match re-arms from the compare value it met, not from `TCNT` (R161). -/
theorem tick_ocrD_of_match (hen : r.divEn = true) (hmatch : r.tcnt + 1#16 = r.ocrD) :
    (tick c r).1.ocrD = r.ocrD + BitVec.ofNat 16 c.divPeriod := by
  simp [tick_ocrD, afterDiv_eq_divMatch hen hmatch]

/-- Only the divider part of a TICK emits a divider event, and it kicks the watchdog with it (R161, R163). -/
theorem tick_events_of_match (hen : r.divEn = true) (hmatch : r.tcnt + 1#16 = r.ocrD) :
    ∃ before after, (tick c r).2 = before ++ [.divEvent, .wdtKick] ++ after ∧ .divEvent ∉ before ∧
      .divEvent ∉ after := by
  refine ⟨(afterStep c r).2, (slotTick (afterDiv c r).1).2, ?_, ?_, ?_⟩
  · rw [tick_events, afterDiv_eq_divMatch hen hmatch, divMatch_events]
  · rcases stepPart_events c (commitPart (countTick r)) with h | h | h <;> simp [h]
  · rcases slotTick_events (afterDiv c r).1 with h | h <;> simp [h]

theorem tick_periodCounted (hen : r.divEn = true) (hmatch : r.tcnt + 1#16 = r.ocrD)
    (hlow : DividerCountersLow Config.hw r) : PeriodCounted r (tick Config.hw r).1 := by
  have hdiv := afterDiv_eq_divMatch (c := Config.hw) hen hmatch
  have h := divStageMs_periodCounted
    (r := { (afterStep Config.hw r).1 with
      ocrD := (afterStep Config.hw r).1.ocrD + BitVec.ofNat 16 Config.hw.divPeriod })
    (DividerCountersLow.of_eq hlow (by simp) (by simp) (by simp))
  exact {
    cntMs := by simpa [tick_cntMs, hdiv, divMatch] using h.cntMs
    cnt10ms := by simpa [tick_cnt10ms, hdiv, divMatch] using h.cnt10ms
    cnt250ms := by simpa [tick_cnt250ms, hdiv, divMatch] using h.cnt250ms
    f10ms := by simpa [tick_f10ms, hdiv, divMatch] using h.f10ms
    f250ms := by simpa [tick_f250ms, hdiv, divMatch] using h.f250ms
    f1s := by simpa [tick_f1s, hdiv, divMatch] using h.f1s }

end Match

/-- Settles O34: the match re-arms (`tick_ocrD_of_match`), counts a period (`tick_periodCounted`) and emits its two
events together (`tick_events_of_match`). -/
theorem dividerMatchCascades : Obligations.DividerMatchCascades := by
  intro s rest hs hen hmatch hlow
  obtain ⟨before, after, hevents, -, -⟩ := tick_events_of_match (c := Config.hw) hen hmatch
  have h := tick_periodCounted hen hmatch hlow
  refine ⟨_, before, after, step_tick s rest hs, hevents, (tick_divEn ..).trans hen, ?_, h.cntMs, h.cnt10ms,
    h.cnt250ms, h.f10ms, h.f250ms, h.f1s⟩
  rw [tickTransition_regs, tick_ocrD_of_match hen hmatch, BitVec.toNat_add, BitVec.toNat_ofNat, Nat.add_mod_mod]

/-! ### The distance to the next divider event -/

/-- The divider is enabled, and its next event comes in the `k`-th TICK from now (R162). -/
structure DividerIn (c : Config) (k : Nat) (r : Regs) : Prop where
  enabled : r.divEn = true
  pos : 1 ≤ k
  le : k ≤ c.divPeriod
  ocrD : r.ocrD = r.tcnt + BitVec.ofNat 16 k

section Distance

variable {c : Config} {k : Nat} {r r' : Regs}

theorem DividerIn.of_eq (h : DividerIn c k r) (hen : r'.divEn = true) (htcnt : r'.tcnt = r.tcnt)
    (hocrD : r'.ocrD = r.ocrD) : DividerIn c k r' :=
  ⟨hen, h.pos, h.le, by rw [hocrD, htcnt, h.ocrD]⟩

/-- `DIV_PERIOD` fits 16 bits (R9), so the compare value is met in the next TICK at the distance 1 alone. -/
theorem DividerIn.match_iff (hc : c.Valid) (h : DividerIn c k r) : r.tcnt + 1#16 = r.ocrD ↔ k = 1 := by
  obtain ⟨-, -, -, -, -, -, -, -, hperiod⟩ := hc
  obtain ⟨-, hpos, hle, hcompare⟩ := h
  rw [hcompare]
  constructor
  · intro heq; bv_omega
  · rintro rfl; rfl

/-- A TICK emits the divider event when its distance is 1, and re-arms it a whole period away; before that it takes 1
from the distance. -/
theorem DividerIn.tick (hc : c.Valid) (h : DividerIn c k r) :
    (k = 1 ∧ DividerIn c c.divPeriod (tick c r).1 ∧ (tick c r).2.count .divEvent = 1) ∨
    (1 < k ∧ DividerIn c (k - 1) (tick c r).1 ∧ DividerQuiet r (tick c r)) := by
  have hmatch := h.match_iff hc
  obtain ⟨hen, hpos, hle, hcompare⟩ := h
  have hen' := (tick_divEn c r).trans hen
  by_cases hk : k = 1
  · obtain ⟨before, after, hevents, hbefore, hafter⟩ := tick_events_of_match (c := c) hen (hmatch.2 hk)
    refine .inl ⟨hk, ⟨hen', by omega, le_rfl, ?_⟩, ?_⟩
    · rw [tick_ocrD_of_match hen (hmatch.2 hk), tick_tcnt, hmatch.2 hk]
    · rw [hevents, List.count_append, List.count_append, List.count_eq_zero_of_not_mem hbefore,
        List.count_eq_zero_of_not_mem hafter]
      rfl
  · have q := tick_dividerQuiet c fun heq => hk (hmatch.1 heq.2)
    refine .inr ⟨by omega, ⟨hen', by omega, by omega, ?_⟩, q⟩
    rw [q.ocrD, tick_tcnt, hcompare, BitVec.add_assoc]
    congr 1
    rw [← BitVec.ofNat_add, Nat.add_sub_of_le hpos]

end Distance

section Command

variable {c : Config} {s : State} {w : CommandWord} {rest : List Input}

/-- No command writes `TCNT` or `OCR_D` (R20). -/
theorem stepAt_command_compare (hs : s.inputs = .command w :: rest) :
    (stepAt c s).regs.tcnt = s.regs.tcnt ∧ (stepAt c s).regs.ocrD = s.regs.ocrD := by
  rcases stepAt_command_cases (c := c) hs with hsame | ⟨i, data, -, hok⟩
  · rw [hsame]; exact ⟨rfl, rfl⟩
  · have hframe := commandAt_frame hok
    exact ⟨hframe.time, hframe.divider.1⟩

/-- The command alone that clears `DIV_EN` is a STOP with P_STOP_DISABLES_DIVIDER: ARM sets it, and the others leave
it (R37). -/
theorem stepAt_command_divEn (hs : s.inputs = .command w :: rest) (hen : s.regs.divEn = true) :
    (stepAt c s).regs.divEn = true ↔ ¬(decode w = .ok .stop ∧ c.stopDisablesDivider = true) := by
  by_cases hstop : decode w = .ok .stop
  · obtain rfl := decode_eq_ok_iff.1 hstop
    have hdiv : (stepAt c s).regs.divEn = if c.stopDisablesDivider then false else s.regs.divEn := by
      rw [stepAt_encode hs]; rfl
    rw [hdiv, hen]
    simp [hstop]
  · refine iff_of_true ?_ fun h => hstop h.1
    rcases stepAt_command_cases (c := c) hs with hsame | ⟨i, data, rfl, hok⟩
    · rw [hsame]; exact hen
    · rw [decodeOfEncode, Except.ok.injEq] at hstop
      by_cases harm : ∃ d, i = .arm d
      · obtain ⟨d, rfl⟩ := harm
        rcases arm_ok hok with ⟨-, hr⟩ | ⟨-, hr⟩ <;> rw [hr]
        exact programSegment_divEn ..
      · exact ((commandAt_frame hok).divEnable (not_exists.1 harm) hstop).trans hen

end Command

/-- Settles O57: a TICK by `DividerIn.tick`, a command by what it writes (`stepAt_command_compare`,
`stepAt_command_divEn`). -/
theorem dividerDistanceCountsDown : Obligations.DividerDistanceCountsDown := by
  intro s rest k hen hpos hle hcompare
  have hin : DividerIn Config.hw k s.regs := ⟨hen, hpos, hle, hcompare⟩
  refine ⟨fun hs => ⟨_, step_tick s rest hs, ?_⟩, fun w hs => ⟨_, stepIsTheConfiguredStep s, ?_⟩⟩
  · rcases hin.tick hw_valid with ⟨hk, hnext, hone⟩ | ⟨hk, hnext, q⟩
    · refine ⟨hnext.enabled, iff_of_true (List.count_pos_iff.1 (hone ▸ Nat.one_pos)) hk, ?_⟩
      rw [if_pos hk]; exact hnext.ocrD
    · refine ⟨hnext.enabled, iff_of_false q.noEvent (by omega), ?_⟩
      rw [if_neg (by omega)]; exact hnext.ocrD
  · obtain ⟨htcnt, hocrD⟩ := stepAt_command_compare (c := Config.hw) hs
    refine ⟨?_, by rw [hocrD, htcnt, hcompare], stepAt_command_divEn hs hen⟩
    rw [stepAt_command_events hs]
    exact List.not_mem_nil

/-! ### The period -/

/-- While `DIV_EN` stays 1 the first event comes after the distance, and then one a period (R162). -/
theorem count_divEvent_eq_div (xs : List Input) {s : State} {rest : List Input} {k : Nat} (hs : s.inputs = xs ++ rest)
    (hreset : Input.reset ∉ xs) (hen : ∀ m ≤ xs.length, (runAt Config.hw m s).regs.divEn = true)
    (h : DividerIn Config.hw k s.regs) :
    (eventsOfRun xs.length s).count .divEvent =
      (tickCount xs + (Config.hw.divPeriod - k)) / Config.hw.divPeriod := by
  induction xs generalizing s k with
  | nil =>
    have hpos := h.pos
    have hle := h.le
    refine (Nat.div_eq_of_lt ?_).symm
    rw [tickCount_nil]; omega
  | cons x xs ih =>
    have hinputs := stepAt_hw_inputs_cons hs
    have hrest : ∀ m ≤ xs.length, (runAt Config.hw m (stepAt Config.hw s)).regs.divEn = true :=
      fun m hm => hen (m + 1) (Nat.succ_le_succ hm)
    rw [List.mem_cons, not_or] at hreset
    rw [List.length_cons]
    rcases stepAt_slot_cases Config.hw hs (Ne.symm hreset.1) with ⟨rfl, hregs, hevents⟩ | ⟨w, rfl, -⟩
    · have hle := h.le
      rw [tickCount_tick_cons, count_eventsOfRun_succ, hevents]
      rcases h.tick hw_valid with ⟨rfl, hnext, hone⟩ | ⟨hk, hnext, q⟩
      · have hperiod : tickCount xs + 1 + (Config.hw.divPeriod - 1) = tickCount xs + Config.hw.divPeriod := by omega
        rw [hone, ih hinputs hreset.2 hrest (hregs ▸ hnext), hperiod, Nat.sub_self, Nat.add_zero,
          Nat.add_div_right _ hle, Nat.add_comm]
      · rw [List.count_eq_zero_of_not_mem q.noEvent, Nat.zero_add, ih hinputs hreset.2 hrest (hregs ▸ hnext)]
        congr 1
        omega
    · obtain ⟨htcnt, hocrD⟩ := stepAt_command_compare (c := Config.hw) hs
      rw [tickCount_command_cons, eventsOfRun_command _ hs]
      exact ih hinputs hreset.2 hrest (h.of_eq (hrest 0 (Nat.zero_le _)) htcnt hocrD)

/-- Settles O58, by the count of `count_divEvent_eq_div`. -/
theorem dividerRunsOncePerPeriod : Obligations.DividerRunsOncePerPeriod := by
  intro s xs rest k hs hreset hen hpos hle hcompare
  have hrun : ∀ m ≤ xs.length, (runAt Config.hw m s).regs.divEn = true :=
    fun m hm => hen m _ hm (run_eq_runAt m s)
  refine ⟨⟨_, run_eq_runAt _ s⟩, ?_⟩
  rw [count_divEvent_eq_div xs hs hreset hrun ⟨hrun 0 (Nat.zero_le _), hpos, hle, hcompare⟩, Nat.add_sub_assoc hle]

/-! ### The time from reset -/

/-- The counters and flags are those of `n` base periods from reset, no flag read since (R161, R162). -/
structure PeriodsShown (n : Nat) (r : Regs) : Prop where
  cntMs : r.cntMs.toNat = n % 10
  cnt10ms : r.cnt10ms.toNat = n / 10 % 25
  cnt250ms : r.cnt250ms.toNat = n / 250 % 4
  f10ms : r.f10ms = decide (10 ≤ n)
  f250ms : r.f250ms = decide (250 ≤ n)
  f1s : r.f1s = decide (1000 ≤ n)

section Shown

variable {n : Nat} {r r' : Regs} {res : EventResult}

theorem PeriodsShown.low (h : PeriodsShown n r) : DividerCountersLow Config.hw r :=
  ⟨h.cntMs ▸ Nat.mod_lt _ (by decide), h.cnt10ms ▸ Nat.mod_lt _ (by decide),
    h.cnt250ms ▸ Nat.mod_lt _ (by decide)⟩

theorem PeriodsShown.succ (h : PeriodsShown n r) (hcounted : PeriodCounted r r') : PeriodsShown (n + 1) r' := by
  obtain ⟨hms, h10, h250, hf10, hf250, hf1⟩ := h
  obtain ⟨hms', h10', h250', hf10', hf250', hf1'⟩ := hcounted
  refine ⟨by omega, by omega, by omega, ?_, ?_, ?_⟩
  · rw [hf10', hf10, hms, Bool.eq_iff_iff]
    simp only [Bool.or_eq_true, decide_eq_true_eq]
    omega
  · rw [hf250', hf250, hms, h10, Bool.eq_iff_iff]
    simp only [Bool.or_eq_true, decide_eq_true_eq]
    omega
  · rw [hf1', hf1, hms, h10, h250, Bool.eq_iff_iff]
    simp only [Bool.or_eq_true, decide_eq_true_eq]
    omega

theorem PeriodsShown.of_quiet (h : PeriodsShown n r) (q : DividerQuiet r res) : PeriodsShown n res.1 := by
  obtain ⟨hms, h10, h250, hf10, hf250, hf1⟩ := h
  exact ⟨by rw [q.cntMs, hms], by rw [q.cnt10ms, h10], by rw [q.cnt250ms, h250], by rw [q.f10ms, hf10],
    by rw [q.f250ms, hf250], by rw [q.f1s, hf1]⟩

end Shown

/-- What the divider shows after `m` TICKs from reset: the whole periods, and the rest of the period in progress as the
distance to the next event. -/
structure TimeKept (m : Nat) (s : State) : Prop where
  next : DividerIn Config.hw (Config.hw.divPeriod - m % Config.hw.divPeriod) s.regs
  shown : PeriodsShown (m / Config.hw.divPeriod) s.regs
  event : 0 < m → (.divEvent ∈ s.events ↔ Config.hw.divPeriod ∣ m)

/-- The TICK at the distance 1 ends a period; any other counts inside the period in progress. -/
theorem TimeKept.tick {m : Nat} {s : State} {rest : List Input} (h : TimeKept m s) (hs : s.inputs = .tick :: rest) :
    TimeKept (m + 1) (stepAt Config.hw s) := by
  obtain ⟨hnext, hshown, -⟩ := h
  rw [stepAt_tick Config.hw s rest hs]
  have hmod : m % Config.hw.divPeriod < Config.hw.divPeriod := Nat.mod_lt _ hw_divPeriod_range.1
  rcases hnext.tick hw_valid with ⟨hk, hrearmed, hone⟩ | ⟨hk, hnearer, q⟩
  · have hdvd : Config.hw.divPeriod ∣ m + 1 := Nat.dvd_of_mod_eq_zero <| by
      have hlast : m % Config.hw.divPeriod + 1 = Config.hw.divPeriod := by omega
      rw [← Nat.mod_add_mod, hlast, Nat.mod_self]
    refine ⟨?_, ?_, fun _ => iff_of_true (List.count_pos_iff.1 (hone ▸ Nat.one_pos)) hdvd⟩
    · rw [Nat.mod_eq_zero_of_dvd hdvd]; exact hrearmed
    · rw [Nat.succ_div_of_dvd hdvd]
      exact hshown.succ (tick_periodCounted hnext.enabled ((hnext.match_iff hw_valid).2 hk) hshown.low)
  · have hsucc : (m + 1) % Config.hw.divPeriod = m % Config.hw.divPeriod + 1 := by
      rw [← Nat.mod_add_mod, Nat.mod_eq_of_lt (by omega)]
    have hndvd : ¬Config.hw.divPeriod ∣ m + 1 := fun hdvd => by
      have := Nat.mod_eq_zero_of_dvd hdvd
      omega
    refine ⟨?_, ?_, fun _ => iff_of_false q.noEvent hndvd⟩
    · rw [hsucc, Nat.sub_add_eq]; exact hnearer
    · rw [Nat.succ_div_of_not_dvd hndvd]; exact hshown.of_quiet q

theorem TimeKept.ticks (n : Nat) {m : Nat} {s : State} (h : TimeKept m s) (hs : s.inputs = List.replicate n .tick) :
    TimeKept (m + n) (runAt Config.hw n s) := by
  induction n generalizing m s with
  | zero => exact h
  | succ n ih =>
    rw [List.replicate_succ] at hs
    rw [Nat.add_comm n, ← Nat.add_assoc, Nat.add_comm 1]
    exact ih (h.tick hs) (by rw [stepAt_hw_inputs, hs]; rfl)

theorem reset_timeKept (inputs : List Input) : TimeKept 0 { State.reset with inputs := inputs } := by
  obtain ⟨hpos, hle⟩ := hw_divPeriod_range
  refine ⟨⟨rfl, ?_, ?_, ?_⟩, ?_, nofun⟩
  · rw [Nat.zero_mod]; exact hpos
  · exact Nat.sub_le ..
  · rw [Nat.zero_mod]; exact (BitVec.zero_add _).symm
  · rw [Nat.zero_div]; exact ⟨rfl, rfl, rfl, rfl, rfl, rfl⟩

/-- Settles O54: the time is kept at reset (`reset_timeKept`) and by every TICK (`TimeKept.tick`). -/
theorem dividerKeepsTimeFromReset : Obligations.DividerKeepsTimeFromReset := by
  intro n
  have h := (reset_timeKept _).ticks n rfl
  rw [Nat.zero_add] at h
  obtain ⟨-, ⟨hms, h10, h250, hf10, hf250, hf1⟩, hevent⟩ := h
  exact ⟨_, run_eq_runAt n _, hms, h10, h250, hf10, hf250, hf1, hevent⟩

end Sys2Proof.Proofs
end

section
/-! PROOFS. The statement of spec/44_register_read.md: RDREG (R180) over the register map of spec/10_state.md R44. -/

namespace Sys2Proof.Proofs

open Sys2Proof.Machine

/-! ### The packed registers as numbers -/

/-- SCHED and FLAGS share this layout: three flags in bits 2:0, bits 31:3 read 0 (R34, R39). -/
theorem toNat_threeFlags (b₂ b₁ b₀ : Bool) :
    ((BitVec.ofBool b₂ ++ BitVec.ofBool b₁ ++ BitVec.ofBool b₀).setWidth 32).toNat =
      b₀.toNat + 2 * b₁.toNat + 4 * b₂.toNat := by
  rw [BitVec.toNat_setWidth_of_le (by decide)]
  simp only [toNat_append_eq_mul_add, BitVec.toNat_ofBool]
  omega

theorem toNat_schedWord (r : Regs) :
    (schedWord r).toNat = r.stepEn.toNat + 2 * r.deferred.toNat + 4 * r.inStep.toNat :=
  toNat_threeFlags ..

theorem toNat_divctlWord (r : Regs) : (divctlWord r).toNat = r.divEn.toNat := by
  rw [divctlWord, BitVec.toNat_setWidth_of_le (by decide), BitVec.toNat_ofBool]

theorem toNat_flagsWord (r : Regs) :
    (flagsWord r).toNat = r.f10ms.toNat + 2 * r.f250ms.toNat + 4 * r.f1s.toNat :=
  toNat_threeFlags ..

theorem toNat_servoOut (r : Regs) :
    (servoOut r).toNat = if r.scnt.toNat < r.pulse.toNat then 1 else 0 := by
  rw [servoOut, Bool.toNat, Bool.cond_decide]

theorem toNat_pinsWord (r : Regs) :
    (pinsWord r).toNat =
      (if r.scnt.toNat < r.pulse.toNat then 1 else 0) + 2 * r.inStep.toNat + 16 * r.idx.toNat := by
  rw [pinsWord, BitVec.toNat_setWidth_of_le (by decide), ← toNat_servoOut]
  simp only [toNat_append_eq_mul_add, BitVec.toNat_ofBool, BitVec.toNat_ofNat, addrOut, stepOut]
  omega

/-! ### The register map -/

/-- The content of a register as R44 lays it out, as a number: a plain register is its element, since the bits it does
not list read 0. -/
def registerContent (n : RegName) (r : Regs) : Nat :=
  match n with
  | .pw i => (readPw r i).toNat
  | .idx => r.idx.toNat
  | .period => r.period.toNat
  | .pulse => r.pulse.toNat
  | .scnt => r.scnt.toNat
  | .tcnt => r.tcnt.toNat
  | .ocrS => r.ocrS.toNat
  | .rem => r.rem.toNat
  | .sched => r.stepEn.toNat + 2 * r.deferred.toNat + 4 * r.inStep.toNat
  | .ocrD => r.ocrD.toNat
  | .divctl => r.divEn.toNat
  | .cntMs => r.cntMs.toNat
  | .cnt10ms => r.cnt10ms.toNat
  | .cnt250ms => r.cnt250ms.toNat
  | .flags => r.f10ms.toNat + 2 * r.f250ms.toNat + 4 * r.f1s.toNat
  | .pins => (if r.scnt.toNat < r.pulse.toNat then 1 else 0) + 2 * r.inStep.toNat + 16 * r.idx.toNat

theorem toNat_registerValue (n : RegName) (r : Regs) : (registerValue n r).toNat = registerContent n r := by
  cases n with
  | rem => rfl
  | sched => exact toNat_schedWord r
  | divctl => exact toNat_divctlWord r
  | flags => exact toNat_flagsWord r
  | pins => exact toNat_pinsWord r
  | pw | idx | period | pulse | scnt | tcnt | ocrS | ocrD | cntMs | cnt10ms | cnt250ms =>
    exact BitVec.toNat_setWidth_of_le (by decide)

theorem registerOf_of_lt {sel : BitVec 8} (h : sel.toNat < 16) : registerOf sel = some (.pw ⟨sel.toNat, h⟩) :=
  dif_pos h

/-! ### RDREG -/

theorem rdreg_of_reserved {sel : BitVec 8} (h : 0x1E < sel.toNat) (r : Regs) : rdreg sel r = raise .errRange := by
  rw [rdreg, (registerOf_eq_none sel).2 h]

theorem rdreg_of_register {sel : BitVec 8} {n : RegName} (h : registerOf sel = some n) (r : Regs) :
    rdreg sel r = respond r (registerValue n r) := by
  rw [rdreg, h]

/-- An RDREG of a register answers OK with its content and changes no element (R180). -/
theorem exec_rdreg_of_register {sel : BitVec 8} {n : RegName} (h : registerOf sel = some n) (s : State) :
    exec (.rdreg sel) s =
      .next { s with response := some (BitVec.ofNat 40 (registerContent n s.regs)), events := [] } := by
  rw [exec_eq_runCommand, commandAt, runCommand, rdreg_of_register h, respond, complete, responseWord_ok,
    toNat_registerValue]

/-- Settles O25: a reserved number is refused (`rdreg_of_reserved`), and any other names one register, whose content is
the data (`exec_rdreg_of_register`); each clause is then the name its number has in R44's map. -/
theorem rdregReturnsTheRegister : Obligations.RdregReturnsTheRegister := by
  intro sel s
  refine ⟨fun hreserved => ?_, fun hmapped => ?_⟩
  · rw [exec_eq_runCommand, commandAt, runCommand, rdreg_of_reserved hreserved]; rfl
  · obtain ⟨n, hn⟩ := Option.ne_none_iff_exists'.1 (mt (registerOf_eq_none sel).1 (Nat.not_lt.2 hmapped))
    have content : ∀ m, registerOf sel = some m → registerContent n s.regs = registerContent m s.regs :=
      fun m hm => by rw [Option.some.inj (hn.symm.trans hm)]
    exact ⟨_, exec_rdreg_of_register hn s,
      fun h => content (.pw ⟨sel.toNat, h⟩) (registerOf_of_lt h),
      fun h => content .idx (h ▸ rfl),
      fun h => content .period (h ▸ rfl),
      fun h => content .pulse (h ▸ rfl),
      fun h => content .scnt (h ▸ rfl),
      fun h => content .tcnt (h ▸ rfl),
      fun h => content .ocrS (h ▸ rfl),
      fun h => content .rem (h ▸ rfl),
      fun h => content .sched (h ▸ rfl),
      fun h => content .ocrD (h ▸ rfl),
      fun h => content .divctl (h ▸ rfl),
      fun h => content .cntMs (h ▸ rfl),
      fun h => content .cnt10ms (h ▸ rfl),
      fun h => content .cnt250ms (h ▸ rfl),
      fun h => content .flags (h ▸ rfl),
      fun h => content .pins (h ▸ rfl)⟩

end Sys2Proof.Proofs
end

section
/-! PROOFS. The statements of spec/60_exceptions.md: no step stops the machine (R202, R216), an error has no trace but
its response (R201), and what can set `STEP_EN` (R206). -/

namespace Sys2Proof.Proofs

open Sys2Proof.Machine

/-! ### No step stops the machine -/

/-- Settles O15: a run of this hardware answers the state of its configured run (`run_eq_runAt`). -/
theorem everyRunGoesOn : Obligations.EveryRunGoesOn := fun n s => ⟨runAt Config.hw n s, run_eq_runAt n s⟩

/-! ### Errors -/

/-- A command that answers another status than OK took the error outcome, which carries no record, no data and no
event (R13, R201). -/
theorem runCommand_of_status_ne_ok {cmd : Regs → CmdResult} {s : State} {w : ResponseWord}
    (hw : (runCommand cmd s).response = some w) (hstatus : statusField w ≠ 0x00#8) :
    (runCommand cmd s).regs = s.regs ∧ (runCommand cmd s).events = [] ∧ dataField w = 0#32 := by
  rcases runCommand_cases cmd s with ⟨r, data, -, hrun⟩ | ⟨e, -, hrun⟩ <;> rw [hrun] at hw ⊢ <;>
    obtain rfl := Option.some.inj hw
  · exact absurd (statusField_responseWord .ok data) hstatus
  · exact ⟨rfl, rfl, dataField_responseWord e 0#32⟩

/-- Settles O35, kind of step by kind of step (`step_cases`): a TICK and a reset give no response, and a word, legal or
not, runs as one `runCommand` (`runCommand_of_status_ne_ok`). -/
theorem errorsChangeNothing : Obligations.ErrorsChangeNothing := by
  intro s t w hstep hw hstatus
  rcases step_cases s t hstep with ⟨rfl, -⟩ | ⟨v, i, -, -, rfl⟩ | ⟨v, e, -, -, rfl⟩ | ⟨-, rfl⟩
  · cases hw
  · exact runCommand_of_status_ne_ok hw hstatus
  · exact runCommand_of_status_ne_ok (cmd := fun _ => raise .errIllegal) hw hstatus
  · cases hw

/-! ### The step channel's enable -/

section Enable

variable {c : Config} {r r' : Regs}

/-- The step part of a TICK never sets the enable, and while it leaves it set it leaves the request as it is. -/
theorem stepPart_enabled (h : (stepPart c r).1.stepEn = true) :
    r.stepEn = true ∧ (stepPart c r).1.deferred = r.deferred := by
  rcases stepPart_cases c r with ⟨-, hs⟩ | ⟨-, -, -, hs⟩ | ⟨hen, -, -, hs⟩ <;> rw [hs] at h ⊢
  · exact ⟨h, rfl⟩
  · cases h
  · exact ⟨hen, by rw [intermediateWrap_regs, programSegment_deferred]⟩

/-- Only its commit sets the enable in a TICK: a request was pending with no callback in progress, and is cleared
(R136, R206). -/
theorem tick_sets_stepEn (hoff : r.stepEn = false) (hon : (tick c r).1.stepEn = true) :
    r.deferred = true ∧ r.inStep = false ∧ (tick c r).1.deferred = false := by
  rw [tick_stepEn] at hon
  obtain ⟨hcommitted, hkept⟩ := stepPart_enabled hon
  obtain ⟨hdef, hin⟩ : r.deferred = true ∧ r.inStep = false := by simpa [hoff] using hcommitted
  exact ⟨hdef, hin, by simp [tick_deferred, hkept, hin]⟩

/-- STEPDONE is the only command that sets the enable, at the end of a callback in which a request was made
(R137, R206). -/
theorem commandAt_sets_stepEn {i : Instr} {data : BitVec 32} (hok : commandAt c i r = .ok (r', data))
    (hoff : r.stepEn = false) (hon : r'.stepEn = true) :
    i = .stepdone ∧ r.inStep = true ∧ r.deferred = true ∧ r'.deferred = false := by
  cases i with
  | arm d => rcases arm_ok hok with ⟨-, rfl⟩ | ⟨-, rfl⟩ <;> simp at hon
  | stop => obtain rfl := stop_ok hok; cases hon
  | stepdone =>
    obtain ⟨hin, rfl⟩ := stepdone_ok hok
    exact ⟨rfl, hin, by simpa [hoff] using hon, stepReturn_deferred r⟩
  | _ =>
    have hkept := commandAt_schedKept hok nofun nofun nofun
    exact absurd ((hkept.stepEn.trans hoff).symm.trans hon) Bool.false_ne_true

end Enable

/-- Settles O38, kind of step by kind of step (`step_cases`): a TICK sets the enable by its commit (`tick_sets_stepEn`),
a command by STEPDONE's return (`commandAt_sets_stepEn`); an error leaves it, and a reset leaves it at 0. -/
theorem onlyCommitAndStepdoneEnable : Obligations.OnlyCommitAndStepdoneEnable := by
  intro s t hstep hoff hon
  rcases step_cases s t hstep with ⟨rfl, hhead⟩ | ⟨w, i, hhead, hd, rfl⟩ | ⟨w, e, -, -, rfl⟩ | ⟨-, rfl⟩
  · obtain ⟨hdef, hin, hcleared⟩ := tick_sets_stepEn hoff hon
    exact ⟨hdef, hcleared, .inl ⟨hin, hhead⟩⟩
  · obtain rfl := decode_eq_ok_iff.1 hd
    rcases runCommand_cases (commandAt Config.hw i) { s with inputs := s.inputs.tail } with
      ⟨r, data, hok, hrun⟩ | ⟨e, -, hrun⟩ <;> rw [hrun] at hon ⊢
    · obtain ⟨rfl, hin, hdef, hcleared⟩ := commandAt_sets_stepEn hok hoff hon
      exact ⟨hdef, hcleared, .inr ⟨hin, hhead⟩⟩
    · exact absurd (hoff.symm.trans hon) Bool.false_ne_true
  · exact absurd (hoff.symm.trans hon) Bool.false_ne_true
  · cases hon

end Sys2Proof.Proofs
end

section
/-! PROOFS. The statements of spec/70_reset_and_hazards.md: RESET in any state (R230, R233), a chained ARM committed
late (R240), the callback in progress (R243) and the slots of a fair run (R246).

R240 rests on `DelayFrom c m n a`: where the compare value and the end of the delay lie, counted from the baseline of
the ARM. A TICK with the request still held only moves the baseline back (`DelayFrom.tick_quiet`), and once the commit
comes late the next match is the first one moved by whole wraps (`DelayFrom.delayRuns_of_late`), from where
`count_stepFire_of_firesIn` counts. R243 rests on `Callback`, which every input but STEPDONE and reset keeps, and R246
on `slotTicksLeft`, which every TICK takes down by one until the slot ends. -/

namespace Sys2Proof.Proofs

open Sys2Proof.Machine Sys2Proof.Safety

/-! ### RESET -/

/-- Settles O11: the reset record has no callback in progress, so STEPDONE is refused there
(`stepdoneEndsTheCallback`). -/
theorem resetRestoresEveryElement : Obligations.ResetRestoresEveryElement := fun s rest hs =>
  ⟨_, step_reset s rest hs, rfl, rfl, (stepdoneEndsTheCallback _).1 rfl⟩

/-! ### A delay counted from its baseline -/

/-- The baseline of a delay lies `a` TICKs back; from there the compare value is first reached after `m` TICKs and the
delay is over after `n`. Unlike `DelayRuns` it does not suppose that the first match is still to come. -/
structure DelayFrom (c : Config) (m n a : Nat) (r : Regs) : Prop where
  compare : r.ocrS + BitVec.ofNat 16 a = r.tcnt + BitVec.ofNat 16 m
  total : n = m + (r.rem.toNat - 2 ^ 16)
  slack : DelayHasSlack c r.rem

/-- How much later than the first match, `m` TICKs after the baseline, the next match comes when `e` TICKs have passed
since the baseline and the first match among them: the whole wraps that bring it past `e` (R240). -/
def lateTicks (m e : Nat) : Nat := 65536 * ((e - m) / 65536 + 1)

theorem lateTicks_range {m e : Nat} (h : m ≤ e) : e < m + lateTicks m e ∧ m + lateTicks m e ≤ e + 65536 := by
  unfold lateTicks
  omega

/-- Whole wraps of `TCNT` do not show in 16 bits (R28). -/
theorem ofNat_add_lateTicks (m e : Nat) : BitVec.ofNat 16 (m + lateTicks m e) = BitVec.ofNat 16 m := by
  apply BitVec.eq_of_toNat_eq
  rw [BitVec.toNat_ofNat, BitVec.toNat_ofNat, lateTicks]
  exact Nat.add_mul_mod_self_left ..

section DelayFrom

variable {c : Config} {m n a : Nat} {r r' : Regs}

theorem DelayFrom.of_eq (h : DelayFrom c m n a r) (htcnt : r'.tcnt = r.tcnt) (hocrS : r'.ocrS = r.ocrS)
    (hrem : r'.rem = r.rem) : DelayFrom c m n a r' := by
  obtain ⟨hcompare, htotal, hslack⟩ := h
  exact ⟨by rw [hocrS, htcnt, hcompare], by rw [hrem, htotal], by rw [hrem]; exact hslack⟩

/-- The split made `a` TICKs after its base, be it before or after the first match it programs (R131). -/
theorem programSegment_delayFrom (hc : c.Valid) {base : Ticks} (hmin : min c.minDelay c.early ≤ n)
    (hn : n < 2 ^ 32) (htcnt : r.tcnt = base + BitVec.ofNat 16 a) :
    DelayFrom c (firstMatchTicks c n) n a (programSegment c base n r) := by
  refine ⟨?_, (firstMatchTicks_add_programSegment_rem hc base r hn).symm, programSegment_slack hc base r hmin hn⟩
  rw [programSegment_ocrS hc, programSegment_tcnt, htcnt, add_right_comm]

/-- A TICK that leaves the compare value and `REM` alone moves the baseline one TICK back. -/
theorem DelayFrom.tick_quiet (h : DelayFrom c m n a r) (q : StepChannelQuiet r (tick c r)) :
    DelayFrom c m n (a + 1) (tick c r).1 := by
  obtain ⟨hcompare, htotal, hslack⟩ := h
  refine ⟨?_, by rw [q.rem, htotal], by rw [q.rem]; exact hslack⟩
  rw [q.ocrS, tick_tcnt, BitVec.ofNat_add, ← BitVec.add_assoc, hcompare, add_right_comm]

/-- Past the first match the delay runs on to a match whole wraps later, and ends as much later (R240). -/
theorem DelayFrom.delayRuns_of_late (h : DelayFrom c m n a r) (hlate : m ≤ a) :
    DelayRuns c (m + lateTicks m a - a) (n + lateTicks m a - a) r := by
  obtain ⟨hcompare, htotal, hslack⟩ := h
  obtain ⟨hafter, hwithin⟩ := lateTicks_range hlate
  refine ⟨by omega, by omega, ?_, by omega, hslack⟩
  have hsum : BitVec.ofNat 16 (m + lateTicks m a - a) + BitVec.ofNat 16 a = BitVec.ofNat 16 m := by
    rw [← BitVec.ofNat_add, Nat.sub_add_cancel hafter.le, ofNat_add_lateTicks]
  rw [← BitVec.add_left_inj (BitVec.ofNat 16 a), hcompare, BitVec.add_assoc, hsum]

end DelayFrom

/-! ### A commit past the first match -/

/-- A non-zero ARM leaves a request and its delay counted from its baseline, `a` TICKs before the ARM (R130, R131). -/
theorem stepAt_arm_delayFrom {s : State} {d : BitVec 32} {rest : List Input} {a : Nat}
    (hs : s.inputs = .command (encode (.arm d)) :: rest) (hd : d ≠ 0#32)
    (htcnt : s.regs.tcnt = armBase s.regs + BitVec.ofNat 16 a) :
    (stepAt Config.hw s).regs.stepEn = false ∧ (stepAt Config.hw s).regs.deferred = true ∧
      (stepAt Config.hw s).regs.inStep = s.regs.inStep ∧
      DelayFrom Config.hw (firstMatchTicks Config.hw (max d.toNat 17)) (max d.toNat 17) a
        (stepAt Config.hw s).regs := by
  have hdelay := programSegment_delayFrom (r := { s.regs with divEn := true, stepEn := false }) hw_valid
    (le_trans (min_le_left ..) (le_max_right d.toNat 17)) (max_lt d.isLt (by decide)) htcnt
  rw [stepAt_encode hs, runCommand, commandAt, arm_of_ne_zero _ hd]
  exact ⟨programSegment_stepEn .., rfl, programSegment_inStep .., hdelay.of_eq rfl rfl rfl⟩

/-- An enabled channel whose first match has passed fires whole wraps after the end of its delay (R240). -/
theorem count_stepFire_of_late (xs : List Input) {s : State} {rest : List Input} {m n a : Nat}
    (hs : s.inputs = xs ++ rest) (hxs : ∀ x ∈ xs, disturbsStep x = false) (hen : EnabledNextTick s.regs)
    (hdelay : DelayFrom Config.hw m n a s.regs) (hlate : m ≤ a) :
    (eventsOfRun xs.length s).count .stepFire = if a + tickCount xs < n + lateTicks m a then 0 else 1 := by
  rw [count_stepFire_of_firesIn xs hs hxs ⟨hen, _, hdelay.delayRuns_of_late hlate⟩]
  exact if_congr (by omega) rfl rfl

/-- A request that the first STEPDONE commits past the first match fires whole wraps after the end of its delay, as
many as bring the first match past the commit (R240). -/
theorem count_stepFire_of_lateStepdone (ys : List Input) {s : State} {zs rest : List Input} {m n a : Nat}
    (hs : s.inputs = ys ++ .command (encode .stepdone) :: zs ++ rest)
    (hxs : ∀ x ∈ ys ++ .command (encode .stepdone) :: zs, disturbsStep x = false)
    (hfirst : .command (encode .stepdone) ∉ ys) (hheld : RequestHeld s.regs)
    (hdelay : DelayFrom Config.hw m n a s.regs) (hlate : m ≤ a + tickCount ys) :
    (eventsOfRun (ys ++ .command (encode .stepdone) :: zs).length s).count .stepFire =
      if a + tickCount (ys ++ .command (encode .stepdone) :: zs) < n + lateTicks m (a + tickCount ys) then 0 else 1 := by
  induction ys generalizing s a with
  | nil =>
    have hinputs : (stepAt Config.hw s).inputs = zs ++ rest := stepAt_hw_inputs_cons hs
    have hregs : (stepAt Config.hw s).regs = stepReturn s.regs := by
      rw [stepAt_encode (rest := zs ++ rest) hs, runCommand, commandAt, stepdone_of_inStep hheld.inStep]; rfl
    rw [List.nil_append, List.length_cons, eventsOfRun_command _ hs, tickCount_command_cons]
    refine count_stepFire_of_late zs hinputs (List.forall_mem_cons.1 hxs).2 ?_ ?_ hlate <;> rw [hregs]
    · exact .inl (by simp [hheld.deferred])
    · exact hdelay.of_eq (by simp) (by simp) (by simp)
  | cons y ys ih =>
    rw [List.cons_append] at hs hxs ⊢
    rw [List.forall_mem_cons] at hxs
    rw [List.mem_cons, not_or] at hfirst
    have hinputs := stepAt_hw_inputs_cons hs
    rcases stepAt_sched_cases (c := Config.hw) hs hxs.1 with ⟨rfl, hregs, hevents⟩ | ⟨rfl, -⟩ | ⟨w, rfl, hkept⟩
    · rw [tickCount_tick_cons] at hlate
      obtain ⟨q, hheld'⟩ := hheld.tick Config.hw
      have hdelay' := hdelay.tick_quiet q
      rw [← hregs] at hheld' hdelay'
      rw [List.length_cons, count_eventsOfRun_succ, hevents, List.count_eq_zero_of_not_mem q.noFire, Nat.zero_add,
        ih hinputs hxs.2 hfirst.2 hheld' hdelay' (by omega), tickCount_tick_cons, tickCount_tick_cons,
        Nat.add_assoc, Nat.add_assoc, Nat.add_comm 1, Nat.add_comm 1]
    · exact absurd rfl hfirst.1
    · rw [tickCount_command_cons] at hlate
      rw [tickCount_command_cons, tickCount_command_cons, List.length_cons, eventsOfRun_command _ hs]
      exact ih hinputs hxs.2 hfirst.2 (hkept.requestHeld hheld)
        (hdelay.of_eq hkept.tcnt hkept.ocrS hkept.rem) hlate

/-- Settles O50: the ARM leaves its delay counted from the previous step (`stepAt_arm_delayFrom`); the commit is that of
the next TICK (`count_stepFire_of_late`) or of the first STEPDONE (`count_stepFire_of_lateStepdone`). -/
theorem lateChainedStepFiresWholeWrapsLate : Obligations.LateChainedStepFiresWholeWrapsLate := by
  rintro s d a e late xs rest hs hd hrem htcnt hxs hcommit hlate rfl
  have hbase : armBase s.regs = s.regs.ocrS := if_neg hrem
  obtain ⟨hen, hdef, hin, hdelay⟩ := stepAt_arm_delayFrom hs hd (hbase ▸ htcnt)
  have hinputs : (stepAt Config.hw s).inputs = xs ++ rest := stepAt_hw_inputs_cons (xs := xs) hs
  refine ⟨⟨_, run_eq_runAt _ s⟩, ?_⟩
  rw [eventsOfRun_command _ hs]
  rcases hcommit with ⟨hfree, rfl⟩ | ⟨hcallback, ys, zs, rfl, hfirst, rfl⟩
  · exact count_stepFire_of_late xs hinputs hxs (.inr ⟨hdef, hin.trans hfree⟩) hdelay hlate
  · exact count_stepFire_of_lateStepdone ys hinputs hxs hfirst ⟨hen, hdef, hin.trans hcallback⟩ hdelay hlate

/-! ### The callback in progress -/

/-- A step callback is in progress, and the channel is disabled while it lasts (R210, R243). -/
structure Callback (r : Regs) : Prop where
  inStep : r.inStep = true
  stepEn : r.stepEn = false

/-- A TICK in the callback commits nothing and matches nothing. -/
theorem Callback.tick (c : Config) {r : Regs} (h : Callback r) :
    Callback (tick c r).1 ∧ .stepFire ∉ (tick c r).2 := by
  obtain ⟨hin, hen⟩ := h
  have q := tick_stepChannelQuiet c (r := r) (by simp [hen, hin])
  exact ⟨⟨q.inStep.trans hin, by simp [q.stepEn, hen, hin]⟩, q.noFire⟩

/-- STEPDONE is the only command that ends the callback or enables the channel in it (R137, R206). -/
theorem commandAt_callback {c : Config} {i : Instr} {r r' : Regs} {data : BitVec 32}
    (hok : commandAt c i r = .ok (r', data)) (hi : i ≠ .stepdone) (h : Callback r) : Callback r' :=
  ⟨((commandAt_frame hok).inStep hi).trans h.inStep,
    Bool.eq_false_iff.2 fun hon => hi (commandAt_sets_stepEn hok h.stepEn hon).1⟩

/-- The callback lasts through every transition but STEPDONE and reset, and none of them fires a step. -/
theorem stepAt_callback {c : Config} {s : State} {x : Input} {rest : List Input} (hs : s.inputs = x :: rest)
    (hreset : x ≠ .reset) (hdone : x ≠ .command (encode .stepdone)) (h : Callback s.regs) :
    Callback (stepAt c s).regs ∧ .stepFire ∉ (stepAt c s).events := by
  cases x with
  | tick => rw [stepAt_tick c s rest hs]; exact h.tick c
  | reset => exact absurd rfl hreset
  | command w =>
    rw [stepAt_command_events hs]
    refine ⟨?_, List.not_mem_nil⟩
    rcases stepAt_command_cases (c := c) hs with hsame | ⟨i, data, rfl, hok⟩
    · rw [hsame]; exact h
    · exact commandAt_callback hok (fun hi => hdone (by rw [hi])) h

theorem run_callback (xs : List Input) {s : State} {rest : List Input} (hs : s.inputs = xs ++ rest)
    (hxs : ∀ x ∈ xs, x ≠ .reset ∧ x ≠ .command (encode .stepdone)) (h : Callback s.regs) :
    Callback (runAt Config.hw xs.length s).regs ∧ .stepFire ∉ eventsOfRun xs.length s := by
  induction xs generalizing s with
  | nil => exact ⟨h, List.not_mem_nil⟩
  | cons x xs ih =>
    obtain ⟨⟨hreset, hdone⟩, hrest⟩ := List.forall_mem_cons.1 hxs
    obtain ⟨hcallback, hnone⟩ := stepAt_callback (c := Config.hw) hs hreset hdone h
    obtain ⟨hcallback', hnone'⟩ := ih (stepAt_hw_inputs_cons hs) hrest hcallback
    rw [List.length_cons, eventsOfRun_succ]
    exact ⟨hcallback', List.not_mem_append hnone hnone'⟩

/-- Settles O53: the first `n` inputs keep the callback (`run_callback`), and `STEP_OUT` is its level. -/
theorem noStepDuringTheCallback : Obligations.NoStepDuringTheCallback := by
  intro s n hin hen hn hxs
  obtain ⟨hcallback, hnone⟩ := run_callback _ (List.take_append_drop n s.inputs).symm hxs ⟨hin, hen⟩
  rw [List.length_take_of_le hn] at hcallback hnone
  exact ⟨_, run_eq_runAt n s, hnone, hcallback.inStep, hcallback.stepEn⟩

/-! ### Fair runs -/

/-- The TICKs left of the slot in progress (R114). -/
def slotTicksLeft (r : Regs) : Nat := r.period.toNat - r.scnt.toNat

/-- A TICK ends the slot, or takes one from what is left of it (R112, R113). -/
theorem tick_slotTicksLeft {c : Config} {r : Regs} (hin : SlotCounterInSlot r) :
    (∃ i, .muxBoundary i ∈ (tick c r).2) ∨ slotTicksLeft (tick c r).1 < slotTicksLeft r := by
  by_cases hend : r.scnt + 1#16 = r.period
  · exact .inl ⟨_, muxBoundary_mem_of_boundariesIn (boundariesIn_tick_boundary hend)⟩
  · obtain ⟨hscnt, hkept, -⟩ := tick_inside (c := c) hend
    have hleft : r.scnt.toNat < r.period.toNat := hin
    rw [slotTicksLeft, hscnt, hkept.period, toNat_succ_of_lt hin, slotTicksLeft]
    omega

/-- The invariants of R45 hold all along the run, whatever the agents send. -/
theorem runOf_inv (choice : Nat → Input) (n : Nat) : Inv Config.hw (runOf Config.hw choice n).regs := by
  induction n with
  | zero => exact reset_inv hw_valid
  | succ n ih => exact stepAt_inv hw_valid (by decide) (s := { runOf Config.hw choice n with inputs := [choice n] }) ih

/-- Transition `n` of the run, or some transition after it, is a slot boundary (R246). -/
abbrev BoundaryFrom (choice : Nat → Input) (n : Nat) : Prop :=
  ∃ m i, n ≤ m ∧ .muxBoundary i ∈ (runOf Config.hw choice (m + 1)).events

theorem BoundaryFrom.of_succ {choice : Nat → Input} {n : Nat} (h : BoundaryFrom choice (n + 1)) :
    BoundaryFrom choice n := by
  obtain ⟨m, i, hm, hboundary⟩ := h
  exact ⟨m, i, Nat.le_of_succ_le hm, hboundary⟩

section Fair

variable {choice : Nat → Input} (hreset : ∀ n, choice n ≠ .reset)

include hreset

/-- A transition of the run that is a TICK ends the slot or takes one from what is left of it; another one, a command,
leaves the slot as it is. -/
theorem runOf_slot_cases (n : Nat) :
    (choice n = .tick ∧ ((∃ i, .muxBoundary i ∈ (runOf Config.hw choice (n + 1)).events) ∨
      slotTicksLeft (runOf Config.hw choice (n + 1)).regs < slotTicksLeft (runOf Config.hw choice n).regs)) ∨
    (choice n ≠ .tick ∧
      slotTicksLeft (runOf Config.hw choice (n + 1)).regs = slotTicksLeft (runOf Config.hw choice n).regs) := by
  obtain ⟨-, -, hin, -⟩ := runOf_inv choice n
  rcases stepAt_slot_cases Config.hw (s := { runOf Config.hw choice n with inputs := [choice n] }) rfl (hreset n) with
    ⟨htick, hregs, hevents⟩ | ⟨w, hword, hkept, hscnt, -⟩ <;> rw [runOf]
  · rw [hregs, hevents]
    exact .inl ⟨htick, tick_slotTicksLeft hin⟩
  · exact .inr ⟨by rw [hword]; exact nofun, by rw [slotTicksLeft, hkept.period, hscnt, slotTicksLeft]⟩

/-- By induction on what is left of the slot, and within it on the transitions up to the next TICK. -/
theorem boundaryFrom_of_ticksForever (hticks : TicksForever choice) (n : Nat) : BoundaryFrom choice n := by
  induction hleft : slotTicksLeft (runOf Config.hw choice n).regs using Nat.strong_induction_on generalizing n with
  | _ left shorter =>
    obtain ⟨m, hnm, htick⟩ := hticks n
    induction hwait : m - n using Nat.strong_induction_on generalizing n with
    | _ wait sooner =>
      rcases runOf_slot_cases hreset n with ⟨-, ⟨i, hboundary⟩ | hless⟩ | ⟨hcommand, hsame⟩
      · exact ⟨n, i, le_rfl, hboundary⟩
      · exact (shorter _ (hleft ▸ hless) (n + 1) rfl).of_succ
      · have hne : n ≠ m := by rintro rfl; exact hcommand htick
        exact (sooner (m - (n + 1)) (by omega) (n + 1) (hsame.trans hleft) (by omega) rfl).of_succ

end Fair

/-- Settles O55: the TICKs of a fair run are enough (`boundaryFrom_of_ticksForever`); STEPDONE has no part in it. -/
theorem fairRunsKeepReachingBoundaries : Obligations.FairRunsKeepReachingBoundaries :=
  fun _ hfair hreset n => boundaryFrom_of_ticksForever hreset hfair.1 n

end Sys2Proof.Proofs
end
